-- ==== Sys2Proof/Word.lean ====
section
/-! DEFINITION. The word types of the Arcigon 2048G: bytes as they stand in a frame and on the link, 32-bit keys
and epochs, 16-bit generations. -/

namespace Sys2Proof

/-- A byte of a frame or of the link. -/
abbrev Byte := BitVec 8

/-- A 32-bit value: a key, an epoch, a check code, a store label. -/
abbrev Word := BitVec 32

/-- A generation, kept modulo 65536 (R9). -/
abbrev Gen := BitVec 16

/-- A set of bits of one frame: pairs of a byte's offset in the frame (0 to 511) and the bits of that byte that are
in the set; an offset that is not listed contributes no bit. -/
abbrev FrameBits := List (Nat × Byte)

end Sys2Proof
end

