-- ==== Sys2Proof/Config.lean ====
section
/-! DEFINITION. The free values: what the manual leaves open in a value the part still sends. Each is a constant
with no body, applied to the model's own counter `State.freeUses`, so that two uses need not agree and nothing can be
proved of any of them. The log entries that name them stand beside each. -/

namespace Sys2Proof.Config

/-- The four epoch bytes of a SET EPOCH or INFO answer whose epoch flag is H'00 (R197 gives the place, no value).
Log entry 7. -/
opaque unsetEpochField : Nat → Word

/-- The four store label bytes of an INFO answer whose store label flag is H'00 (R197). Log entry 7. -/
opaque absentLabelField : Nat → Word

/-- The opens bytes of a LOOKUP record whose window flag is H'00 (R198). Log entry 8. -/
opaque absentOpensField : Nat → Word

/-- The closes bytes of a LOOKUP record whose window flag is H'00 (R198). Log entry 8. -/
opaque absentClosesField : Nat → Word

/-- The hold-before byte of a HOLD CLASS or RELEASE CLASS answer whose class is above 15, so that there is no hold
to report (R102, R103, R197). Log entry 9. -/
opaque holdBeforeOfNoClass : Nat → Byte

/-- The hold-after byte of a HOLD CLASS or RELEASE CLASS answer whose class is above 15. Log entry 9. -/
opaque holdAfterOfNoClass : Nat → Byte

/-- What MISO carries in byte `i` of an immediate command's argument bytes: R184 says H'FF for a submission's bytes, R189
nothing for these. Applied to the counter of free values and to `i`. Log entry 28. -/
opaque misoDuringArguments : Nat → Nat → Byte

end Sys2Proof.Config
end

