-- ==== Sys2Proof/Syntax.lean ====
section
/-! DEFINITION. The commands and events of spec/opcode_table.json, one constructor a row. A row's operands are what
comes from outside the part with it: the bytes of a transaction, and what the physics of the array decides (which bits
a STRIKE or an ERASE fails to turn, what a cut leaves, how much erase progress has passed). Every operand of that second
kind is arbitrary, so a statement about all of them covers every outcome the manual allows (log entry 4). -/

namespace Sys2Proof

/-- One command or event, one constructor for each row of spec/opcode_table.json. -/
inductive Instr where
  /-- POWER_ON (R193). `cut`: the bits that an operation cut by it had not turned (R120). -/
  | powerOn (cut : FrameBits)
  /-- RESETN_ASSERTION (R192). `cut`: as for POWER_ON. -/
  | resetnAssertion (cut : FrameBits)
  /-- RESETN_RELEASE (R193). -/
  | resetnRelease
  /-- CHIP_SELECT_FALL (R182). -/
  | chipSelectFall
  /-- SUBMISSION (R186): the frame as received, bytes 0 and 1, the argument bytes (their number is byte 2, L), and the
  four link CRC bytes as one number. -/
  | submission (code : Byte) (tag : Byte) (args : List Byte) (crc : Word)
  /-- SUBMISSION_TRUNCATED (R185): the whole bytes clocked in before chip select rose. -/
  | submissionTruncated (bytes : List Byte)
  /-- STATUS (R183). -/
  | status
  /-- COLLECT (R173). -/
  | collect
  /-- RECORD_SHIFTED_OUT (R174). -/
  | recordShiftedOut
  /-- INFO (R180). -/
  | info
  /-- SET EPOCH (R43). -/
  | setEpoch (value : Word)
  /-- HOLD CLASS (R102). -/
  | holdClass (cls : Byte)
  /-- RELEASE CLASS (R103). -/
  | releaseClass (cls : Byte)
  /-- CANCEL (R175). -/
  | cancel (tag : Byte)
  /-- RESTART (R178). `cut`: the bits that background work abandoned by it had not turned (R121). -/
  | restart (cut : FrameBits)
  /-- UNKNOWN_IMMEDIATE_COMMAND (R189): the code byte. -/
  | unknownImmediateCommand (code : Byte)
  /-- ISSUE, its dispatch (R69). The arguments of every dispatch are those of its slot. -/
  | issue
  /-- LOOKUP, its dispatch (R36). -/
  | lookup
  /-- DRAW, its dispatch (R46). -/
  | draw
  /-- TOPUP, its dispatch (R74). -/
  | topup
  /-- MOVE, its dispatch (R77). -/
  | move
  /-- REVOKE, its dispatch (R83). -/
  | revoke
  /-- LIST, its dispatch (R39). -/
  | list
  /-- CONFIGURE CLASS, its dispatch (R96). -/
  | configureClass
  /-- PURGE ORPHANS, its dispatch (R139). -/
  | purgeOrphans
  /-- FORMAT, its dispatch (R159). `cut`: the bits that background work abandoned by it had not turned (R121). -/
  | format (cut : FrameBits)
  /-- READ_COMPLETE (R109). -/
  | readComplete
  /-- STRIKE_COMPLETE (R110). `stuck`: the bits that stay standing through a STRIKE that intends them (R106). -/
  | strikeComplete (stuck : FrameBits)
  /-- MARKER_RETIREMENT (R112). `elapsed`: erase progress, in µs, since the ERASE's last event; `stuck`: marker bits that
  stay standing. -/
  | markerRetirement (elapsed : Nat) (stuck : FrameBits)
  /-- BODY_ERASE (R112). `stuck`: body bits that stay struck through the ERASE (R106). -/
  | bodyErase (elapsed : Nat) (stuck : FrameBits)
  /-- MARKER_ERASE (R112). `stuck`: marker bits that stay struck. -/
  | markerErase (elapsed : Nat) (stuck : FrameBits)
  /-- SYSTEM_FRAME_ERASE (R112). `stuck`: bits of the frame that stay struck. -/
  | systemFrameErase (elapsed : Nat) (stuck : FrameBits)
  /-- BLANK_VERIFY (R112). -/
  | blankVerify
  /-- QUANTUM (R115). -/
  | quantum
  /-- SUSPENSION (R116). `undone`: the bits of the stage that the erase had not yet turned. -/
  | suspension (elapsed : Nat) (undone : FrameBits)
  /-- BACKGROUND_START (R117). -/
  | backgroundStart
  /-- BACKGROUND_RESUME (R117). -/
  | backgroundResume
  /-- TRANSACTION_END (R189). -/
  | transactionEnd
  /-- POWER_LOSS (R120). `cut`: the bits that the operation cut by it had not turned. -/
  | powerLoss (cut : FrameBits)
  deriving DecidableEq, Repr

end Sys2Proof
end

