-- ==== Sys2Proof/Decode.lean ====
section
/-! DEFINITION. The table's words. No row of spec/opcode_table.json gives bits (the part takes transactions and
events, not instruction words), so no word spells a command. The rest of the file is what the link port reads from a
transaction's first bytes. -/

namespace Sys2Proof

/-- The command that the `nbits` bits of `w` spell by the table: none, since no row gives bits. -/
def decodeTableWord (_nbits _w : Nat) : Option Instr := none

/-- Codes H'40 to H'7F begin a submission (R181). -/
def submissionCode (code : Byte) : Bool := 0x40 ≤ code.toNat && code.toNat ≤ 0x7F

/-- The number of argument bytes of each immediate command, by its code (R194); none where the code is no immediate command. -/
def immediateArguments (code : Byte) : Option Nat :=
  match code.toNat with
  | 1 => some 0
  | 2 => some 0
  | 3 => some 0
  | 4 => some 4
  | 5 => some 1
  | 6 => some 1
  | 7 => some 1
  | 8 => some 0
  | _ => none

/-- The immediate command codes of R194. -/
def immediateCode (code : Byte) : Bool := (immediateArguments code).isSome

/-- The bytes of a submission whose frame is not complete (R184, R185): the code byte is there, and fewer bytes than
7 + L have come. -/
def incompleteSubmission : List Byte → Bool
  | [] => false
  | [code] => submissionCode code
  | [code, _] => submissionCode code
  | code :: _ :: len :: rest => submissionCode code && rest.length < len.toNat + 4

/-- The command that a code byte outside the submission range and the argument bytes after it spell (R189, R194), when they are
as many as its code requires: STATUS, COLLECT, INFO, SET EPOCH, HOLD CLASS, RELEASE CLASS, CANCEL, RESTART, or an unknown
immediate command. `cut` is the operand of RESTART that no byte carries (log entry 4). -/
def immediateCommand (cut : FrameBits) (code : Byte) (args : List Byte) : Option Instr :=
  match code.toNat, args with
  | 1, [] => some .status
  | 2, [] => some .collect
  | 3, [] => some .info
  | 4, [a, b, c, d] => some (.setEpoch (a ++ b ++ c ++ d))
  | 5, [cls] => some (.holdClass cls)
  | 6, [cls] => some (.releaseClass cls)
  | 7, [tag] => some (.cancel tag)
  | 8, [] => some (.restart cut)
  | _, [] => if immediateCode code then none else some (.unknownImmediateCommand code)
  | _, _ => none

/-- The submission that a code byte of the submission range and the bytes after it spell, when its frame is complete: tag, L, L
argument bytes, four bytes of link CRC (R184). -/
def submissionCommand (code : Byte) : List Byte → Option Instr
  | tag :: len :: rest =>
    match rest.drop len.toNat with
    | [a, b, c, d] => some (.submission code tag (rest.take len.toNat) (a ++ b ++ c ++ d))
    | _ => none
  | _ => none

/-- The command that the bytes of a transaction spell once they are complete (R181, R184, R189, R194). -/
def transactionCommand (cut : FrameBits) : List Byte → Option Instr
  | [] => none
  | code :: rest => if submissionCode code then submissionCommand code rest else immediateCommand cut code rest

end Sys2Proof
end

