-- ==== Sys2Proof/Machine/State.lean ====
section
/-! DEFINITION. The state of the Arcigon 2048G, block by block as section 2.1 of the manual names its nine blocks, with
the queue of commands that wait, and the state after reset. -/

namespace Sys2Proof.Machine

/-- A frame number, 0 to 2047 (R106). -/
abbrev Frame := Fin 2048

/-- A class number, 0 to 15 (R10). -/
abbrev ClassNo := Fin 16

/-- The frame array (R106): the bytes that are not blank, at address 512 × frame + offset, in rising order of address
and none of them H'FF. An address that is not listed reads H'FF, a blank byte. -/
abbrev Memory := List Host.Cell

/-- The outcome, refusal, collect and condition codes of R195. -/
inductive Code where
  | done | cancelled | notFound | corrupt | badArgument | noPolicy | policyFault | notPermitted | keyExists | full
  | arrayFault | held | epochUnset | early | lapsed | spent | short | overLimit | limit | alreadySet
  | tooLate | epochBackward | noneWaiting | notReady | isOpen
  | accepted | queueFull | tagZero | tagInUse | frameError | lengthError | unknownCommand
  deriving DecidableEq, Repr

/-- The part state (R142). -/
inductive PartState where
  | mounting | ready | unformatted | faulted | formatting
  deriving DecidableEq, Repr

/-- The life stage a phase marker decodes to (R3, R4). -/
inductive Phase where
  | blank | opening | live | moved | retired
  deriving DecidableEq, Repr

/-- A window of validity: opens and closes (R11). -/
structure Window where
  opens : Word
  closes : Word
  deriving DecidableEq, Repr

/-- The fields of a policy record, less its check code (R90). -/
structure Policy where
  drawPermitted : Bool
  topupPermitted : Bool
  revokePermitted : Bool
  retireWhenSpent : Bool
  startHeld : Bool
  windowRequired : Bool
  maxUnits : Nat
  deriving DecidableEq, Repr

/-- The status of a class, with the working copy of its record when it is SET (R92). -/
inductive ClassStatus where
  | unconfigured
  | set (policy : Policy)
  | faulted
  deriving DecidableEq, Repr

/-- An index entry (R24). The class is absent exactly while the corrupt flag is set, so `cls = none` IS the flag. -/
structure Entry where
  key : Word
  frame : Frame
  gen : Gen
  cls : Option ClassNo
  deriving DecidableEq, Repr

/-- A submitted command as its slot records it: tag, command code, argument bytes (R165). -/
structure Command where
  tag : Byte
  code : Byte
  args : List Byte
  deriving DecidableEq, Repr

/-- The flags of a result record (R171, R198). -/
structure Flags where
  more : Bool := false
  corrupt : Bool := false
  skewed : Bool := false
  retired : Bool := false
  degraded : Bool := false
  skewRepaired : Bool := false
  deriving DecidableEq, Repr

/-- What a LOOKUP whose outcome is DONE reports beside the key and the generation (R37). `absentWindow` holds the bytes
the record sends in the window's place when the window is absent. -/
structure LookupReport where
  frame : Frame
  cls : ClassNo
  allowance : Nat
  window : Option Window
  absentWindow : Window
  topups : Nat
  countA : Nat
  countB : Nat
  remaining : Nat
  condition : Code
  label : List Byte
  deriving DecidableEq, Repr

/-- The command items of a result record, by command (R198). -/
inductive Payload where
  | nothing
  | issue (key : Word) (frame : Option Frame) (gen : Option Gen) (allowance : Option Nat) (failed : Nat)
  | lookup (key : Word) (gen : Option Gen) (report : Option LookupReport)
  | draw (key : Word) (gen : Option Gen) (drawn : Nat) (remaining : Option Nat)
  | relocation (key : Word) (frame : Option Frame) (gen : Option Gen) (allowance : Option Nat) (remaining : Option Nat)
      (topups : Option Nat) (failed : Nat)
  | revoke (key : Word) (frame : Option Frame) (gen : Option Gen)
  | list (entries : List Entry)
  | configure (cls : Option Byte) (status : Option ClassStatus)
  | purge (moved failed : Nat)
  | format (part : PartState) (label : Word) (erased newlyBad systemFailures : Nat)
  deriving DecidableEq, Repr

/-- Outcome, flags and command items of a result. -/
structure Result where
  outcome : Code
  flags : Flags
  payload : Payload
  deriving DecidableEq, Repr

/-- A RESULT slot: the finished or cancelled command and its result record (R165, R171). -/
structure Record where
  cmd : Command
  result : Result
  deriving DecidableEq, Repr

/-! ### Array controller (R107) -/

/-- The claimant of an operation: the command in progress or mount, or background reclaim (R108). -/
inductive Claimant where
  | foreground | background
  deriving DecidableEq, Repr

/-- The attempt of an ERASE (R113). -/
inductive Attempt where
  | first | retry
  deriving DecidableEq, Repr

/-- The stage of an ERASE: stages 1 to 4 of a grant frame, or the whole-frame erase of a system frame and the blank verify
(R112). -/
inductive Stage where
  | markerRetirement | bodyErase | markerErase | systemErase | blankVerify
  deriving DecidableEq, Repr

/-- The two kinds of STRIKE (R110): a bit strike of chosen bits, or a field strike of the bytes `value` into the area
that begins at `start`. -/
inductive Strike where
  | bits (intended : FrameBits)
  | field (start : Nat) (value : List Byte)
  deriving DecidableEq, Repr

/-- An ERASE: its frame, attempt, stage, and the progress in µs accumulated in that attempt (R107, R112). -/
structure Erase where
  frame : Frame
  attempt : Attempt
  stage : Stage
  progress : Nat
  deriving DecidableEq, Repr

/-- The progressing operation (R107). `since` is the progress in µs since the attempt last started or resumed. Every
READ is claimed by the foreground (R108). -/
inductive Op where
  | read (frame : Frame)
  | strike (frame : Frame) (claimant : Claimant) (what : Strike)
  | erase (claimant : Claimant) (erase : Erase) (since : Nat)
  deriving DecidableEq, Repr

/-- A foreground claim (R108, R114). `demand` is the demand claim of R131 that waits for a background mark strike. -/
inductive Claim where
  | read (frame : Frame)
  | strike (frame : Frame) (what : Strike)
  | erase (frame : Frame)
  | demand
  deriving DecidableEq, Repr

/-- The array controller (R107). -/
structure Controller where
  op : Option Op
  suspended : Option Erase
  waiting : Option Claim
  deriving DecidableEq, Repr

/-! ### Grant engine -/

/-- What LOOKUP, DRAW, TOPUP and REVOKE take at dispatch (R46, R95): the epoch, the holds, the statuses and records. -/
structure Snapshot where
  epoch : Option Word
  holds : Vector Bool 16
  policies : Vector ClassStatus 16
  deriving DecidableEq, Repr

/-- The complete reading of a grant that a sound READ yields (R15), with the marker as read. -/
structure Grant where
  marker : Byte
  key : Word
  gen : Gen
  cls : ClassNo
  allowance : Nat
  window : Option Window
  label : List Byte
  topups : Nat
  countA : Nat
  countB : Nat
  deriving DecidableEq, Repr

/-- A new record (R68). -/
structure NewRecord where
  key : Word
  gen : Gen
  cls : ClassNo
  allowance : Nat
  window : Option Window
  label : List Byte
  topups : Nat
  deriving DecidableEq, Repr

/-- What a relocation keeps of its old frame (R74, R77). -/
structure OldGrant where
  frame : Frame
  marker : Byte
  gen : Gen
  remaining : Nat
  topups : Nat
  deriving DecidableEq, Repr

/-- The writing of a new record by ISSUE (`old = none`), TOPUP or MOVE: the record and the failed frames so far (R67). -/
structure Writing where
  record : NewRecord
  failed : Nat
  old : Option OldGrant
  deriving DecidableEq, Repr

/-- A DRAW that strikes: the grant as read, the units d to be drawn, and whether the class retires when spent. -/
structure Drawing where
  grant : Grant
  units : Nat
  retire : Bool
  deriving DecidableEq, Repr

/-- The end of a grant by a RETIRED strike: its key, and the result after a verified strike, after a fallback, and after
a fallback whose bad-frame record failed (R58, R59, R85, R86). -/
structure Ending where
  key : Word
  retired : Result
  fallback : Result
  lost : Result
  deriving DecidableEq, Repr

/-- A FORMAT in progress (R160, R161, R162). `systemFailures` counts the failures of FORMAT's own strikes and erases on frames 0,
1 and 2, and none of the mount that follows it (DESIGN CHOICE, log entry 35). -/
structure Formatting where
  label : Word
  erased : Nat
  newlyBad : Nat
  systemFailures : Nat
  deriving DecidableEq, Repr

/-- The current step of the command in progress: the array operation (or the take) it waits for, and what it keeps. -/
inductive EngineStep where
  | lookupRead (snap : Snapshot) (entry : Entry)
  | drawRead (snap : Snapshot) (entry : Entry)
  | drawStrikeA (d : Drawing) (entry : Entry)
  | drawStrikeB (d : Drawing) (entry : Entry) (verifiedA : Bool)
  | drawReadBack (d : Drawing) (entry : Entry)
  | topupRead (snap : Snapshot) (entry : Entry)
  | moveRead (entry : Entry)
  | revokeRead (snap : Snapshot) (entry : Entry)
  | takeErase (w : Writing)
  | takeWait (w : Writing)
  | takeMark (frame : Frame) (w : Writing)
  | openingStrike (w : Writing)
  | bodyStrike (w : Writing)
  | liveStrike (w : Writing)
  | newFrameMark (frame : Frame) (w : Writing)
  | movedStrike (w : Writing) (old : OldGrant) (new : Frame)
  | retiredStrike (e : Ending)
  | fallbackErase (fallback lost : Result)
  | fallbackMark (frame : Frame) (fallback lost : Result)
  | configureStrike (cls : ClassNo) (policy : Policy)
  | configureRead (cls : ClassNo)
  | purgeStrike (rest : List Frame) (moved failed : Nat)
  | formatMapRead (f : Formatting)
  | formatErase (f : Formatting)
  | formatMark (frame : Frame) (f : Formatting)
  | formatRecord (f : Formatting)
  | formatMount (f : Formatting)
  deriving DecidableEq, Repr

/-- The command in progress and its current step. -/
structure Job where
  cmd : Command
  step : EngineStep
  deriving DecidableEq, Repr

/-- The grant engine: the command in progress, the frame it holds (R64), the epoch (R42), the holds (R101). -/
structure Engine where
  job : Option Job
  held : Option Frame
  epoch : Option Word
  holds : Vector Bool 16
  deriving DecidableEq, Repr

/-! ### Mount unit -/

/-- A candidate (R153); `sound` is its class and remaining units, or none for a corrupt candidate. -/
structure Candidate where
  frame : Frame
  marker : Byte
  key : Word
  gen : Gen
  sound : Option (ClassNo × Nat)
  deriving DecidableEq, Repr

/-- The classification of a scanned frame (R149). -/
inductive Scanned where
  | free | dirty | abandoned | orphan | superseded | ended
  | candidate (c : Candidate)
  deriving DecidableEq, Repr

/-- Where R156 will place a scanned frame. -/
inductive Placement where
  | free | reclaim | quarantine
  | candidate (c : Candidate)
  deriving DecidableEq, Repr

/-- What mount goes on with after a frame it ended: the scan, or the resolution of the remaining candidates against the
winners so far (R155). -/
inductive MountNext where
  | scan
  | resolve (todo winners : List Candidate)
  deriving DecidableEq, Repr

/-- The array operation mount waits for, or the walk of R156, which makes none. -/
inductive MountStep where
  | readFormat
  | readMap
  | readPolicies
  | scanRead
  | regularise (found : Scanned)
  | retire
  | movedStrike (next : MountNext)
  | fallbackErase (next : MountNext)
  | fallbackMark (frame : Frame) (next : MountNext)
  | walk
  deriving DecidableEq, Repr

/-- Progress of the start-up scan: the current step, and the frames scanned so far in ascending order; in the walk of R156,
those it has not reached yet. -/
structure MountWork where
  step : MountStep
  scanned : List (Frame × Placement)
  deriving DecidableEq, Repr

/-- The mount report (R157). -/
structure MountReport where
  free : Nat
  dirty : Nat
  abandoned : Nat
  duplicates : Nat
  irregular : Nat
  orphans : Nat
  corrupt : Nat
  deriving DecidableEq, Repr

/-- The mount unit: the mount in progress, the report, the store label (R145, R157). -/
structure MountUnit where
  work : Option MountWork
  report : MountReport
  label : Option Word
  deriving DecidableEq, Repr

/-! ### Link port, intake and pools -/

/-- The transaction in progress after its first byte: nothing taken yet, a command taken, or a COLLECT taken whose record is
being shifted out (R181, R190). `out`: the bytes MISO carries after the captured byte, those of the time in which the
command's own bytes were clocked in, then the answer's; H'FF follows them (R181). -/
inductive TransactionPhase where
  | decoding
  | answering (out : List Byte)
  | collecting (out : List Byte)
  deriving DecidableEq, Repr

/-- A transaction: the port status byte captured when chip select fell (R182), and its phase. -/
structure Transaction where
  captured : Byte
  phase : TransactionPhase
  deriving DecidableEq, Repr

/-- The last-submission outcome (R187). -/
structure LastSubmission where
  outcome : Byte
  tag : Byte
  code : Byte
  deriving DecidableEq, Repr

/-- The link port. RESULT_WAITING, LOW_FREE, ATTN and MISO are views of the state (Machine/Flags.lean). -/
structure LinkPort where
  transaction : Option Transaction
  last : LastSubmission
  mounted : Bool
  faultEvent : Bool
  truncated : Bool
  deriving DecidableEq, Repr

/-- Intake and results: the intake queue (the WAITING slots, oldest first), the result queue (the RESULT slots, oldest
first), and whether a RESTART is pending (R165, R169, R172, R178). The EXECUTING slot is the engine's command. -/
structure Intake where
  waiting : List Command
  results : List Record
  restartPending : Bool
  deriving DecidableEq, Repr

/-- The frame pool manager (R124): the free pool and the reclaim queue, head first; the quarantine set and the working
copy of the bad-frame map, kept in ascending order. -/
structure FramePools where
  free : List Frame
  reclaim : List Frame
  quarantine : List Frame
  bad : List Frame
  deriving DecidableEq, Repr

/-- The supply and the RESETN input. -/
structure Pins where
  powered : Bool
  resetnLow : Bool
  deriving DecidableEq, Repr

/-- The whole part. -/
structure State where
  pins : Pins
  part : PartState
  link : LinkPort
  intake : Intake
  engine : Engine
  index : List Entry
  policies : Vector ClassStatus 16
  pools : FramePools
  ctrl : Controller
  mount : MountUnit
  array : Memory
  /-- The model's own: the commands and events that wait to be taken, first in, first out. -/
  pending : List Instr
  /-- The model's own: how many free values (Config) have been used. -/
  freeUses : Nat
  deriving DecidableEq, Repr

/-- The faults that stop the part. The manual gives none: every failure of the array is reported to a claimant, and an
event whose conditions do not hold does not take place (log entry 3), so the type has no constructor. -/
inductive Fault where
  deriving DecidableEq, Repr

/-- The refusals of the model. -/
inductive Refusal where
  /-- Raised by exec's arm of a command that has no meaning yet, and by nothing else. Safe: the model stops. -/
  | notModelled (mnemonic : String)
  deriving DecidableEq, Repr

/-- A mount report at 0 (R146). -/
def MountReport.zero : MountReport :=
  { free := 0, dirty := 0, abandoned := 0, duplicates := 0, irregular := 0, orphans := 0, corrupt := 0 }

/-- The part right after power-on with a blank array (log entries 1 and 2): every volatile piece at the value its rule
gives after power-on, and the mount of R193 begun, so that the READ of frame 0 is in progress (R146). -/
def State.reset : State where
  pins := { powered := true, resetnLow := false }
  part := .mounting
  link :=
    { transaction := none, last := { outcome := 0xFF, tag := 0, code := 0 }, mounted := false, faultEvent := false,
      truncated := false }
  intake := { waiting := [], results := [], restartPending := false }
  engine := { job := none, held := none, epoch := none, holds := Vector.replicate 16 false }
  index := []
  policies := Vector.replicate 16 .unconfigured
  pools := { free := [], reclaim := [], quarantine := [], bad := [] }
  ctrl := { op := some (.read 0), suspended := none, waiting := none }
  mount := { work := some { step := .readFormat, scanned := [] }, report := MountReport.zero, label := none }
  array := []
  pending := []
  freeUses := 0

end Sys2Proof.Machine
end

