-- ==== Sys2Proof/Machine/Operands.lean ====
section
/-! DEFINITION. Numbers as bytes (most significant byte first, R181) and the arguments of the submitted commands as R196
lays them out. -/

namespace Sys2Proof.Machine

/-- The number that bytes spell, most significant byte first (R181). -/
def beNat (bytes : List Byte) : Nat := bytes.foldl (fun n b => n * 256 + b.toNat) 0

/-- The two bytes of a number, most significant first (R181). -/
def be16 (n : Nat) : List Byte := [BitVec.ofNat 8 (n / 256), BitVec.ofNat 8 n]

/-- The four bytes of a word, most significant first (R181). -/
def be32 (w : Word) : List Byte := be16 (w.toNat / 65536) ++ be16 (w.toNat % 65536)

/-- H'01 for yes and H'00 for no. -/
def boolByte (b : Bool) : Byte := if b then 1 else 0

/-- The bytes `o` to `o + n - 1` of an argument list; a byte that is not there reads H'00 (an accepted submission has the
length its command requires, R186). -/
def argBytes (args : List Byte) (o n : Nat) : List Byte := (List.range n).map fun i => args.getD (o + i) 0

/-- The argument byte at `o`. -/
def argByte (args : List Byte) (o : Nat) : Byte := args.getD o 0

/-- The two-byte number at `o`. -/
def argNat16 (args : List Byte) (o : Nat) : Nat := beNat (argBytes args o 2)

/-- The four-byte word at `o`. -/
def argWord (args : List Byte) (o : Nat) : Word := BitVec.ofNat 32 (beNat (argBytes args o 4))

/-- The window a submission gives: the flag byte at `o`, then opens and closes; H'00 means no window (R196). -/
def argWindow (args : List Byte) (o : Nat) : Option Window :=
  if argByte args o = 0 then none else some { opens := argWord args (o + 1), closes := argWord args (o + 5) }

/-- A yes/no byte: H'00 no, H'01 yes, any other value neither (R196). -/
def yesNo (b : Byte) : Option Bool := if b = 0 then some false else if b = 1 then some true else none

/-- The key: the first four argument bytes of every command that carries one. -/
def Command.key (c : Command) : Word := argWord c.args 0

/-- Valid keys are H'00000001 to H'FFFFFFFE (R8). -/
def validKey (k : Word) : Bool := k ≠ 0 && k ≠ 0xFFFFFFFF

/-- A window that may be written has opens less than closes (R11). -/
def windowOk : Option Window → Bool
  | none => true
  | some w => w.opens.toNat < w.closes.toNat

/-- A class byte as a class number, or none above 15. -/
def classOf (b : Byte) : Option ClassNo := if h : b.toNat < 16 then some ⟨b.toNat, h⟩ else none

/-- ISSUE's arguments in range (R69), as the record R68 gives for ISSUE; none is BAD_ARGUMENT. -/
def issueRecord (args : List Byte) : Option NewRecord :=
  let key := argWord args 0
  let allowance := argNat16 args 5
  let window := argWindow args 7
  let labelLength := (argByte args 16).toNat
  match classOf (argByte args 4) with
  | none => none
  | some cls =>
    if validKey key && 1 ≤ allowance && allowance ≤ 1024 && windowOk window && labelLength ≤ 24 then
      some
        { key := key, gen := 0, cls := cls, allowance := allowance, window := window,
          label := argBytes args 17 labelLength, topups := 0 }
    else none

/-- DRAW's mode (R196). -/
inductive DrawMode where
  | exact | upto
  deriving DecidableEq, Repr

/-- DRAW's units and mode, or none for BAD_ARGUMENT (R45). -/
def drawArgs (args : List Byte) : Option (Nat × DrawMode) :=
  let units := argNat16 args 4
  if 1 ≤ units && units ≤ 1024 then
    if argByte args 6 = 0 then some (units, .exact) else if argByte args 6 = 1 then some (units, .upto) else none
  else none

/-- TOPUP's units added and new window, or none for BAD_ARGUMENT (R74). -/
def topupArgs (args : List Byte) : Option (Nat × Option Window) :=
  let units := argNat16 args 4
  let window := argWindow args 6
  if 1 ≤ units && units ≤ 1023 && windowOk window then some (units, window) else none

/-- CONFIGURE CLASS's class and policy, or none for BAD_ARGUMENT (R96). -/
def configureArgs (args : List Byte) : Option (ClassNo × Policy) :=
  let maxUnits := argNat16 args 7
  match classOf (argByte args 0), yesNo (argByte args 1), yesNo (argByte args 2), yesNo (argByte args 3),
    yesNo (argByte args 4), yesNo (argByte args 5), yesNo (argByte args 6) with
  | some cls, some draw, some topup, some revoke, some retire, some held, some window =>
    if 1 ≤ maxUnits && maxUnits ≤ 1024 then
      some
        (cls,
          { drawPermitted := draw, topupPermitted := topup, revokePermitted := revoke, retireWhenSpent := retire,
            startHeld := held, windowRequired := window, maxUnits := maxUnits })
    else none
  | _, _, _, _, _, _, _ => none

/-- The argument length L each submitted command requires (R194, R186); none where the code is no submitted command. ISSUE
requires 17 plus the label length of its argument byte 16, and an ISSUE of fewer than 17 bytes meets no length. -/
def requiredLength (code : Byte) (args : List Byte) : Option (Option Nat) :=
  if code = 0x41 then some (if args.length < 17 then none else some (17 + (argByte args 16).toNat))
  else if code = 0x42 then some (some 4)
  else if code = 0x43 then some (some 7)
  else if code = 0x44 then some (some 15)
  else if code = 0x45 then some (some 4)
  else if code = 0x46 then some (some 4)
  else if code = 0x47 then some (some 4)
  else if code = 0x48 then some (some 9)
  else if code = 0x49 then some (some 0)
  else if code = 0x4A then some (some 4)
  else none

end Sys2Proof.Machine
end

