-- ==== Sys2Proof/Machine/Crc.lean ====
section
/-! DEFINITION. The two CRC-32 codes: the check code of stored records (R13) and the link CRC (R188). -/

namespace Sys2Proof.Machine

/-- One bit shifted through the register with generator polynomial H'04C11DB7 (R13, R188). -/
def crcShift (r : Word) : Word := if r.msb then (r <<< 1) ^^^ 0x04C11DB7 else r <<< 1

/-- `n` bits shifted through the register. -/
def crcShifts : Nat → Word → Word
  | 0, r => r
  | n + 1, r => crcShifts n (crcShift r)

/-- One input byte, most significant bit first (R13, R188). -/
def crcByte (r : Word) (b : Byte) : Word := crcShifts 8 (r ^^^ (b.setWidth 32 <<< 24))

/-- The register after the bytes, from the initial value H'FFFFFFFF. -/
def crcRegister (bytes : List Byte) : Word := bytes.foldl crcByte 0xFFFFFFFF

/-- The check code of a stored record: the bitwise complement of the register (R13). -/
def checkCode (bytes : List Byte) : Word := ~~~ crcRegister bytes

/-- The link CRC: the register itself (R188). -/
def linkCrc (bytes : List Byte) : Word := crcRegister bytes

end Sys2Proof.Machine
end

