-- ==== Sys2Proof/Machine/Ops.lean ====
section
/-! DEFINITION. The named operations over the frame array (READ, STRIKE, ERASE: R106 to R113), the array controller's
claims (R114), and the ordered collections (index, pools, quarantine set, bad-frame map). -/

namespace Sys2Proof.Machine

/-! ### Bytes of the array -/

/-- One byte of the array; a byte that is not listed is blank. -/
def Memory.read : Memory → Nat → Byte
  | [], _ => 0xFF
  | (k, b) :: m, a => if a = k then b else Memory.read m a

/-- Writes one byte, keeping the canonical form: a blank byte is not listed. -/
def Memory.write : Memory → Nat → Byte → Memory
  | [], a, b => if b = 0xFF then [] else [(a, b)]
  | (k, c) :: m, a, b =>
    if a < k then (if b = 0xFF then (k, c) :: m else (a, b) :: (k, c) :: m)
    else if a = k then (if b = 0xFF then m else (a, b) :: m)
    else (k, c) :: Memory.write m a b

/-- Returns to standing every bit of the bytes at addresses `lo` to `hi - 1`, but for the struck bits that `stuck` holds
struck: a standing bit stays standing (R106, R120). -/
def Memory.eraseRange (lo hi : Nat) (stuck : Nat → Byte) : Memory → Memory
  | [] => []
  | (k, c) :: m =>
    if lo ≤ k && k < hi then
      if c ||| ~~~ (stuck k) = 0xFF then Memory.eraseRange lo hi stuck m
      else (k, c ||| ~~~ (stuck k)) :: Memory.eraseRange lo hi stuck m
    else (k, c) :: Memory.eraseRange lo hi stuck m

/-- The canonical form: addresses of the array, strictly rising, and no blank byte listed. -/
def Memory.wf : Memory → Bool
  | [] => true
  | [(k, b)] => k < 1048576 && b ≠ 0xFF
  | (k, b) :: (l, c) :: m => k < l && b ≠ 0xFF && Memory.wf ((l, c) :: m)

/-- The address of the byte at offset `o` of a frame. -/
def byteAddress (f : Frame) (o : Nat) : Nat := 512 * f.val + o

/-- A frame image: the byte at each offset (R109). It stands in no field of the state. -/
abbrev Image := Nat → Byte

/-- The image a READ of a frame returns (R109). -/
def Memory.image (m : Memory) (f : Frame) : Image := fun o => Memory.read m (byteAddress f o)

/-- Bytes `o` to `o + n - 1` of an image. -/
def Image.bytes (img : Image) (o n : Nat) : List Byte := (List.range n).map fun i => img (o + i)

/-- The number stored at `o`, most significant byte first: R90 and R145 state that order of the policy and the format record; of
the fields of a grant frame it is a DESIGN CHOICE, log entry 6. -/
def Image.nat (img : Image) (o n : Nat) : Nat := beNat (Image.bytes img o n)

/-- Every bit of the bytes `o` to `o + n - 1` standing. -/
def Image.blankRange (img : Image) (o n : Nat) : Bool := (List.range n).all fun i => img (o + i) = 0xFF

/-- Every bit of the 512 bytes standing: a frame that is fully blank. -/
def Image.blank (img : Image) : Bool := Image.blankRange img 0 512

/-! ### STRIKE -/

/-- The bits of the byte at offset `o` that a set of frame bits holds. -/
def FrameBits.bitsAt : FrameBits → Nat → Byte
  | [], _ => 0
  | (k, b) :: rest, o => if o = k then b else FrameBits.bitsAt rest o

/-- The intended bits of a STRIKE: those of a bit strike, or for a field strike the bits that are 0 in the value (R2,
R110). -/
def Strike.intended : Strike → FrameBits
  | .bits intended => intended
  | .field start value => value.zipIdx.map fun p => (start + p.2, ~~~ p.1)

/-- Turns to struck the bits `b` of the byte at offset `o` of a frame; an offset outside the frame names no byte. -/
def Memory.strikeByte (m : Memory) (f : Frame) (o : Nat) (b : Byte) : Memory :=
  if o < 512 then Memory.write m (byteAddress f o) (Memory.read m (byteAddress f o) &&& ~~~ b) else m

/-- Programs a set of intended bits of a frame, but for those that stay standing (R106, R110). -/
def Memory.strike (m : Memory) (f : Frame) (intended stuck : FrameBits) : Memory :=
  intended.foldl (fun m p => Memory.strikeByte m f p.1 (p.2 &&& ~~~ (FrameBits.bitsAt stuck p.1))) m

/-- The verify of a STRIKE on the image read back (R110): a bit strike examines its intended bits, a field strike its whole
area. -/
def Strike.verifies : Strike → Image → Bool
  | .bits intended, img => intended.all fun p => img p.1 &&& p.2 = 0
  | .field start value, img => value.zipIdx.all fun p => img (start + p.2) = p.1

/-! ### ERASE -/

/-- A system frame: 0, 1 or 2. -/
def systemFrame (f : Frame) : Bool := f.val < 3

/-- The first stage of an attempt (R112). -/
def firstStage (f : Frame) : Stage := if systemFrame f then .systemErase else .markerRetirement

/-- Marker retirement: every standing bit of the marker struck, but for those that stay standing (R112). -/
def Memory.retireMarker (m : Memory) (f : Frame) (stuck : FrameBits) : Memory := Memory.strike m f [(0, 0xFF)] stuck

/-- The erase of the bytes at offsets `o` to `p - 1` of a frame. -/
def Memory.eraseBytes (m : Memory) (f : Frame) (o p : Nat) (stuck : FrameBits) : Memory :=
  Memory.eraseRange (byteAddress f o) (byteAddress f p) (fun a => FrameBits.bitsAt stuck (a - byteAddress f 0)) m

/-- What a stage does to its frame, but for the bits `undone` that it has not turned: all of the stage at its completion,
or the part of it done at a cut or a suspension (R112, R116, R120). -/
def Memory.eraseStage (m : Memory) (f : Frame) (stage : Stage) (undone : FrameBits) : Memory :=
  match stage with
  | .markerRetirement => Memory.retireMarker m f undone
  | .bodyErase => Memory.eraseBytes m f 1 512 undone
  | .markerErase => Memory.eraseBytes m f 0 1 undone
  | .systemErase => Memory.eraseBytes m f 0 512 undone
  | .blankVerify => m

/-- What a cut of the operation leaves on the array, `undone` being the bits it had not turned (R120). -/
def Op.cut (m : Memory) (undone : FrameBits) : Op → Memory
  | .read _ => m
  | .strike f _ what => Memory.strike m f (Strike.intended what) undone
  | .erase _ e _ => Memory.eraseStage m e.frame e.stage undone

/-! ### The controller's claims -/

/-- A new ERASE of a frame: first attempt, first stage, no progress. -/
def Erase.start (f : Frame) : Erase := { frame := f, attempt := .first, stage := firstStage f, progress := 0 }

/-- The operation a foreground claim asks for; a demand claim asks for none of its own. -/
def Claim.operation : Claim → Option Op
  | .read f => some (.read f)
  | .strike f what => some (.strike f .foreground what)
  | .erase f => some (.erase .foreground (Erase.start f) 0)
  | .demand => none

/-- A foreground claim (R114): it begins at once when no operation progresses, a suspended erase staying suspended, and
otherwise waits. -/
def Controller.claim (c : Controller) (k : Claim) : Controller :=
  match c.op with
  | none => { c with op := Claim.operation k, waiting := none }
  | some _ => { c with waiting := some k }

/-- The controller with nothing progressing, suspended or waiting: IDLE (R107). -/
def Controller.idle : Controller := { op := none, suspended := none, waiting := none }

/-- A foreground claim made of the part's controller. -/
def State.claim (s : State) (k : Claim) : State := { s with ctrl := Controller.claim s.ctrl k }

/-- The mark of a frame in the bad-frame map: bit 7 − (n modulo 8) of byte n / 8 (R133). -/
def markBits (f : Frame) : FrameBits := [(f.val / 8, (0x80 : Byte) >>> (f.val % 8))]

/-- The STRIKE of a frame's mark in frame 2 (R134). -/
def markStrike (f : Frame) : Strike := .bits (markBits f)

/-! ### Ordered collections -/

/-- Adds a frame to a set kept in ascending order. -/
def insertFrame (f : Frame) : List Frame → List Frame
  | [] => [f]
  | g :: rest => if f < g then f :: g :: rest else if f = g then g :: rest else g :: insertFrame f rest

/-- Removes a frame from a set or a queue. -/
def removeFrame (f : Frame) (frames : List Frame) : List Frame := frames.filter fun g => g ≠ f

/-- The find of a key in the index (R27). -/
def findEntry (index : List Entry) (key : Word) : Option Entry := index.find? fun e => e.key = key

/-- Inserts an entry in ascending order of key (R25). -/
def insertEntry (e : Entry) : List Entry → List Entry
  | [] => [e]
  | d :: rest => if e.key.toNat < d.key.toNat then e :: d :: rest else d :: insertEntry e rest

/-- Marks the entry of a key corrupt: class absent, generation as read (R32). -/
def markEntry (key : Word) (gen : Gen) (index : List Entry) : List Entry :=
  index.map fun e => if e.key = key then { e with cls := none, gen := gen } else e

/-- Repoints the entry of a key to a new frame and generation (R30). -/
def repointEntry (key : Word) (frame : Frame) (gen : Gen) (index : List Entry) : List Entry :=
  index.map fun e => if e.key = key then { e with frame := frame, gen := gen } else e

/-- Removes the entry of a key (R31). -/
def removeEntry (key : Word) (index : List Entry) : List Entry := index.filter fun e => e.key ≠ key

/-- The first grant frame from `n` on that is not in the bad-frame map (R149, R160). -/
def nextFrame (bad : List Frame) : Nat → Nat → Option Frame
  | 0, _ => none
  | fuel + 1, n =>
    if h : n < 2048 then if (⟨n, h⟩ : Frame) ∈ bad then nextFrame bad fuel (n + 1) else some ⟨n, h⟩ else none

/-- A vector with one item for each class. -/
def perClass {α : Type} (f : ClassNo → α) : Vector α 16 :=
  ⟨#[f 0, f 1, f 2, f 3, f 4, f 5, f 6, f 7, f 8, f 9, f 10, f 11, f 12, f 13, f 14, f 15], rfl⟩

/-- Sets the item of one class. -/
def setClass {α : Type} (v : Vector α 16) (k : ClassNo) (x : α) : Vector α 16 := v.set k.val x k.isLt

/-! ### Mount begins -/

/-- A mount begins: the report at 0 and a READ of frame 0 claimed (R146). -/
def State.beginMount (s : State) : State :=
  { s with
      part := .mounting
      mount := { s.mount with work := some { step := .readFormat, scanned := [] }, report := MountReport.zero }
      ctrl := Controller.claim s.ctrl (.read 0) }

end Sys2Proof.Machine
end

