-- ==== Sys2Proof/Machine/Grants.lean ====
section
/-! DEFINITION. The grant frame (R1 to R23): where its fields lie (the manual leaves the places open: log entry 6), the phase
marker, the check code, sound reads, the tally, the grant condition. -/

namespace Sys2Proof.Machine

/-! ### Places of the fields and the order of their bytes (DESIGN CHOICE, log entry 6) -/

/-- Header and body: bytes 1 to 52 of the frame. The marker is byte 0. -/
def recordStart : Nat := 1

/-- Offset of tally copy A, 128 bytes: mark n is bit 7 − (n modulo 8) of byte n / 8 of the copy. -/
def tallyA : Nat := 64

/-- Offset of tally copy B. -/
def tallyB : Nat := 192

/-! ### The phase marker -/

/-- The decoded phase: the most advanced stage whose bit is struck (R4). -/
def phaseOf (marker : Byte) : Phase :=
  if !marker.getLsbD 4 then .retired
  else if !marker.getLsbD 5 then .moved
  else if !marker.getLsbD 6 then .live
  else if !marker.getLsbD 7 then .opening
  else .blank

/-- The clean value of a stage (R3). -/
def cleanMarker : Phase → Byte
  | .blank => 0xFF
  | .opening => 0x7F
  | .live => 0x3F
  | .moved => 0x1F
  | .retired => 0x0F

/-- An irregular marker: not one of the five clean values (R4). -/
def irregular (marker : Byte) : Bool := marker ≠ cleanMarker (phaseOf marker)

/-- The bits struck in the clean value of a stage and standing in the marker: a transition's intended bits (R3), and with the
decoded stage the bits of a regularising strike (R6). -/
def transitionBits (stage : Phase) (marker : Byte) : Byte := ~~~ (cleanMarker stage) &&& marker

/-- A strike of marker bits. -/
def markerStrike (b : Byte) : Strike := .bits [(0, b)]

/-! ### Fields as read -/

/-- The key as read. -/
def Image.key (img : Image) : Word := BitVec.ofNat 32 (Image.nat img 1 4)

/-- The key complement as read. -/
def Image.keyComplement (img : Image) : Word := BitVec.ofNat 32 (Image.nat img 5 4)

/-- The generation as read. -/
def Image.gen (img : Image) : Gen := BitVec.ofNat 16 (Image.nat img 9 2)

/-- The class byte as read. -/
def Image.classByte (img : Image) : Byte := img 11

/-- The allowance as read. -/
def Image.allowance (img : Image) : Nat := Image.nat img 12 2

/-- The window presence byte as read (R11). -/
def Image.presence (img : Image) : Byte := img 14

/-- Opens as read. -/
def Image.opens (img : Image) : Word := BitVec.ofNat 32 (Image.nat img 15 4)

/-- Closes as read. -/
def Image.closes (img : Image) : Word := BitVec.ofNat 32 (Image.nat img 19 4)

/-- The label length as read. -/
def Image.labelLength (img : Image) : Nat := (img 23).toNat

/-- The label bytes as read, as many as the length says, of the 24 places. -/
def Image.label (img : Image) : List Byte := Image.bytes img 24 (min 24 (Image.labelLength img))

/-- The top-up count as read. -/
def Image.topups (img : Image) : Nat := (img 48).toNat

/-- The stored check code as read. -/
def Image.storedCode (img : Image) : Word := BitVec.ofNat 32 (Image.nat img 49 4)

/-- The key pair is consistent (R8). -/
def Image.keyPairConsistent (img : Image) : Bool :=
  Image.keyComplement img = ~~~ (Image.key img) && validKey (Image.key img)

/-- The sequence the check code covers (R14). -/
def coveredBytes (key : Word) (gen : Gen) (cls : Byte) (allowance : Nat) (window : Option Window) (label : List Byte)
    (topups : Nat) : List Byte :=
  be32 key ++ be16 gen.toNat ++ [cls] ++ be16 allowance ++
    (match window with
      | none => (0 : Byte) :: (be32 0 ++ be32 0)
      | some w => (1 : Byte) :: (be32 w.opens ++ be32 w.closes)) ++
    [BitVec.ofNat 8 label.length] ++ label ++ [BitVec.ofNat 8 topups]

/-- The window as read: absent unless the presence byte is H'01. -/
def Image.window (img : Image) : Option Window :=
  if Image.presence img = 1 then some { opens := Image.opens img, closes := Image.closes img } else none

/-- The fields of condition 3 of R15 lie in range (the key's range is in `Image.keyPairConsistent`; a top-up count is a byte
and cannot lie outside). -/
def Image.fieldsInRange (img : Image) : Bool :=
  validKey (Image.key img) && (Image.classByte img).toNat < 16 && 1 ≤ Image.allowance img && Image.allowance img ≤ 1024 &&
    (Image.presence img = 0 || Image.presence img = 1) && Image.labelLength img ≤ 24

/-- The check code passes (R13, R14). -/
def Image.codePasses (img : Image) : Bool :=
  Image.storedCode img =
    checkCode
      (coveredBytes (Image.key img) (Image.gen img) (Image.classByte img) (Image.allowance img) (Image.window img)
        (Image.label img) (Image.topups img))

/-- Conditions 1 to 4 of R15. -/
def Image.sound (img : Image) : Bool :=
  phaseOf (img 0) = .live && Image.keyPairConsistent img && Image.fieldsInRange img && Image.codePasses img

/-- A read through an index entry is sound: conditions 1 to 5 of R15. -/
def Image.soundFor (img : Image) (e : Entry) : Bool :=
  Image.sound img && Image.key img = e.key && Image.gen img = e.gen

/-! ### The tally -/

/-- Mark `n` of the copy at `base` reads struck (R16). -/
def markStruck (img : Image) (base n : Nat) : Bool := !(img (base + n / 8)).getLsbD (7 - n % 8)

/-- The consumed count of a copy: one more than its highest struck mark below the allowance (R17). -/
def consumed (img : Image) (base : Nat) : Nat → Nat
  | 0 => 0
  | n + 1 => if markStruck img base n then n + 1 else consumed img base n

/-- The marks `lo` to `hi - 1` that lie in byte `j` of a copy, as bits of that byte. -/
def marksInByte (lo hi j : Nat) : Byte :=
  (List.range 8).foldl
    (fun b i => if lo ≤ 8 * j + i && 8 * j + i < hi then b ||| ((0x80 : Byte) >>> i) else b) 0

/-- The bit strike of marks `lo` to `hi - 1` of the copy at `base` (R52). -/
def tallyStrike (base lo hi : Nat) : Strike :=
  .bits ((List.range ((hi + 7) / 8 - lo / 8)).map fun i => (base + (lo / 8 + i), marksInByte lo hi (lo / 8 + i)))

/-- The complete reading of a sound read (R15, R18). -/
def Image.grant (img : Image) : Grant where
  marker := img 0
  key := Image.key img
  gen := Image.gen img
  cls := Fin.ofNat 16 (Image.classByte img).toNat
  allowance := Image.allowance img
  window := Image.window img
  label := Image.label img
  topups := Image.topups img
  countA := consumed img tallyA (Image.allowance img)
  countB := consumed img tallyB (Image.allowance img)

/-- The effective consumed count: the larger of the two (R18). -/
def Grant.effective (g : Grant) : Nat := max g.countA g.countB

/-- The remaining units (R18). -/
def Grant.remaining (g : Grant) : Nat := g.allowance - Grant.effective g

/-- The consumed counts of the copies differ (R18). -/
def Grant.skewed (g : Grant) : Bool := g.countA ≠ g.countB

/-! ### Generations, condition, record to write -/

/-- `g` is newer than `h` (R9). -/
def newer (g h : Gen) : Bool := 1 ≤ (g - h).toNat && (g - h).toNat ≤ 32767

/-- The condition of a grant read soundly: the first case of R21 that matches, CORRUPT standing before it. -/
def grantCondition (status : ClassStatus) (held : Bool) (epoch : Option Word) (g : Grant) : Code :=
  match status with
  | .unconfigured => .policyFault
  | .faulted => .policyFault
  | .set _ =>
    if held then .held
    else
      match g.window, epoch with
      | some _, none => .epochUnset
      | some w, some e =>
        if e.toNat < w.opens.toNat then .early
        else if w.closes.toNat ≤ e.toNat then .lapsed
        else if Grant.remaining g = 0 then .spent
        else .isOpen
      | none, _ => if Grant.remaining g = 0 then .spent else .isOpen

/-- The 52 bytes of header and body that hold a new record (R66), each field most significant byte first and the 24 label places
beyond the label left standing: DESIGN CHOICE, log entry 6. -/
def recordBytes (r : NewRecord) : List Byte :=
  be32 r.key ++ be32 (~~~ r.key) ++ be16 r.gen.toNat ++ [BitVec.ofNat 8 r.cls.val] ++ be16 r.allowance ++
    (match r.window with
      | none => (0 : Byte) :: (be32 0 ++ be32 0)
      | some w => (1 : Byte) :: (be32 w.opens ++ be32 w.closes)) ++
    [BitVec.ofNat 8 r.label.length] ++ r.label ++ List.replicate (24 - r.label.length) 0xFF ++
    [BitVec.ofNat 8 r.topups] ++
    be32
      (checkCode
        (coveredBytes r.key r.gen (BitVec.ofNat 8 r.cls.val) r.allowance r.window r.label r.topups))

/-- The header and body strike (R66). -/
def recordStrike (r : NewRecord) : Strike := .field recordStart (recordBytes r)

/-- The record TOPUP writes (R68). -/
def topupRecord (g : Grant) (units : Nat) (window : Option Window) : NewRecord where
  key := g.key
  gen := g.gen + 1
  cls := g.cls
  allowance := Grant.remaining g + units
  window := match window with
    | some w => some w
    | none => g.window
  label := g.label
  topups := g.topups + 1

/-- The record MOVE writes (R68). -/
def moveRecord (g : Grant) : NewRecord where
  key := g.key
  gen := g.gen + 1
  cls := g.cls
  allowance := Grant.remaining g
  window := g.window
  label := g.label
  topups := g.topups

/-- What a relocation keeps of its old frame. -/
def oldGrant (f : Frame) (g : Grant) : OldGrant where
  frame := f
  marker := g.marker
  gen := g.gen
  remaining := Grant.remaining g
  topups := g.topups

end Sys2Proof.Machine
end

