-- ==== Sys2Proof/Machine/SystemFrames.lean ====
section
/-! DEFINITION. The system frames: the format record of frame 0 (R145), the policy table of frame 1 (R90 to R92), the
bad-frame map of frame 2 (R133, R147). -/

namespace Sys2Proof.Machine

/-! ### Frame 0 -/

/-- The first 14 bytes of a format record: identifier, frame count, frame size, first grant frame, store label (R145). -/
def formatFields (label : Word) : List Byte := be32 0x5AC317E8 ++ be16 2048 ++ be16 512 ++ be16 3 ++ be32 label

/-- The 512 bytes of frame 0 that FORMAT writes: the record of 18 bytes and 494 standing bytes (R145, R160). -/
def formatBytes (label : Word) : List Byte :=
  formatFields label ++ be32 (checkCode (formatFields label)) ++ List.replicate 494 0xFF

/-- The store label as read. -/
def Image.storeLabel (img : Image) : Word := BitVec.ofNat 32 (Image.nat img 10 4)

/-- Frame 0 decodes valid (R145): the fields hold their values and the check code passes. -/
def Image.formatValid (img : Image) : Bool :=
  Image.bytes img 0 18 =
    formatFields (Image.storeLabel img) ++ be32 (checkCode (formatFields (Image.storeLabel img)))

/-! ### Frame 1 -/

/-- The 9 bytes the check code of a policy record covers (R91). -/
def policyCovered (k : ClassNo) (p : Policy) : List Byte :=
  [BitVec.ofNat 8 k.val, boolByte p.drawPermitted, boolByte p.topupPermitted, boolByte p.revokePermitted,
    boolByte p.retireWhenSpent, boolByte p.startHeld, boolByte p.windowRequired] ++ be16 p.maxUnits

/-- The 32 bytes of the region of a class that CONFIGURE CLASS writes (R90, R97). -/
def policyBytes (k : ClassNo) (p : Policy) : List Byte :=
  (policyCovered k p).tail ++ be32 (checkCode (policyCovered k p)) ++ List.replicate 20 0xFF

/-- The field strike of a class's policy region (R97). -/
def policyStrike (k : ClassNo) (p : Policy) : Strike := .field (32 * k.val) (policyBytes k p)

/-- The fields of the region of class `k` as read, when each yes/no field reads H'00 or H'01. -/
def Image.policyFields (img : Image) (k : ClassNo) : Option Policy :=
  let o := 32 * k.val
  match yesNo (img o), yesNo (img (o + 1)), yesNo (img (o + 2)), yesNo (img (o + 3)), yesNo (img (o + 4)),
    yesNo (img (o + 5)) with
  | some draw, some topup, some revoke, some retire, some held, some window =>
    some
      { drawPermitted := draw, topupPermitted := topup, revokePermitted := revoke, retireWhenSpent := retire,
        startHeld := held, windowRequired := window, maxUnits := Image.nat img (o + 6) 2 }
  | _, _, _, _, _, _ => none

/-- The status a record region decodes to (R92). -/
def Image.classStatus (img : Image) (k : ClassNo) : ClassStatus :=
  if Image.blankRange img (32 * k.val) 32 then .unconfigured
  else
    match Image.policyFields img k with
    | none => .faulted
    | some p =>
      if 1 ≤ p.maxUnits && p.maxUnits ≤ 1024 &&
          (BitVec.ofNat 32 (Image.nat img (32 * k.val + 8) 4) : Word) = checkCode (policyCovered k p) then
        .set p
      else .faulted

/-- The hold the policy load gives a class (R101). -/
def startHold : ClassStatus → Bool
  | .set p => p.startHeld
  | .unconfigured => false
  | .faulted => false

/-! ### Frame 2 -/

/-- The frames whose marks read struck, frames 0 to 2 not used (R147), in ascending order. -/
def Image.badFrames (img : Image) : List Frame :=
  (List.range 2048).filterMap fun n =>
    if h : n < 2048 then if 3 ≤ n && markStruck img 0 n then some ⟨n, h⟩ else none else none

end Sys2Proof.Machine
end

