-- ==== Sys2Proof/Machine/Flags.lean ====
section
/-! DEFINITION. The indications and the other views that the state determines: RESULT_WAITING, LOW_FREE, ATTN, MISO, the port
status byte, the slots, the counts, the states of the controller and of background reclaim. -/

namespace Sys2Proof.Machine

/-- RESULT_WAITING (R182): the result queue holds a record and no RESTART is pending. -/
def State.resultWaiting (s : State) : Bool := !s.intake.results.isEmpty && !s.intake.restartPending

/-- LOW_FREE (R127): READY, and fewer than 8 frames in the free pool. -/
def State.lowFree (s : State) : Bool := s.part = .ready && s.pools.free.length < 8

/-- The part state field (R182). -/
def PartState.field : PartState → Byte
  | .mounting => 0
  | .ready => 1
  | .unformatted => 2
  | .faulted => 3
  | .formatting => 4

/-- The port status byte (R182). -/
def State.portStatus (s : State) : Byte :=
  (if State.resultWaiting s then 0x80 else 0) ||| (if s.link.mounted then 0x40 else 0) |||
    (if s.link.faultEvent then 0x20 else 0) ||| (if State.lowFree s then 0x10 else 0) |||
    (if s.link.truncated then 0x08 else 0) ||| PartState.field s.part

/-- The port takes transactions: the supply is valid and RESETN is not low (R181, R192). -/
def State.portOpen (s : State) : Bool := s.pins.powered && !s.pins.resetnLow

/-- ATTN is driven low (R191). DESIGN CHOICE (log entry 31): R191 drives it low while FAULT_EVENT is set, and also has it
released after power-on, and from the clearing for a RESTART, until the mount that follows ends; where that mount's own mark
strike sets FAULT_EVENT (R152, R136) the two disagree, and it is driven low, as R137 has it. -/
def State.attnLow (s : State) : Bool :=
  State.portOpen s && (State.resultWaiting s || s.link.mounted || s.link.faultEvent)

/-- What MISO carries in one byte of a transaction: high impedance, a byte, or (`ofCommand`) what the command whose bytes are
still being clocked in makes it (`commandTimeByte`). -/
inductive Miso where
  | highImpedance
  | ofCommand
  | carries (b : Byte)
  deriving DecidableEq, Repr

/-- What MISO carries in byte `i` after the code byte while the command of that code is not yet complete: H'FF for a
submission (R184), a free value for an immediate command (log entry 28). -/
def commandTimeByte (code : Byte) (uses i : Nat) : Byte :=
  if submissionCode code then 0xFF else Config.misoDuringArguments uses i

/-- The bytes MISO carries while the `n` bytes after the code byte of a command are clocked in. -/
def commandTimeBytes (code : Byte) (uses n : Nat) : List Byte := (List.range n).map (commandTimeByte code uses)

/-- What MISO carries in byte `n` of a transaction, byte 0 its first (R181): the captured status byte, the bytes shifted out
after it, and H'FF for any further byte. -/
def Transaction.miso (t : Transaction) : Nat → Miso
  | 0 => .carries t.captured
  | n + 1 =>
    match t.phase with
    | .decoding => .ofCommand
    | .answering out => .carries (out.getD n 0xFF)
    | .collecting out => .carries (out.getD n 0xFF)

/-- What MISO carries in byte `n` of the transaction in progress: high impedance while chip select is high (R181). -/
def State.miso (s : State) (n : Nat) : Miso :=
  match s.link.transaction with
  | none => .highImpedance
  | some t => Transaction.miso t n

/-- The command in progress. -/
def State.inProgress (s : State) : Option Command := s.engine.job.map fun j => j.cmd

/-- A command slot (R165). -/
inductive Slot where
  | free
  | waiting (cmd : Command)
  | executing (cmd : Command)
  | result (record : Record)
  deriving DecidableEq, Repr

/-- How many slots are in use. -/
def State.slotsInUse (s : State) : Nat :=
  s.intake.results.length + (State.inProgress s).toList.length + s.intake.waiting.length

/-- The command slots (R165): RESULT, EXECUTING and WAITING slots, and the FREE ones that make them 8. -/
def State.slots (s : State) : List Slot :=
  s.intake.results.map .result ++ (State.inProgress s).toList.map .executing ++ s.intake.waiting.map .waiting ++
    List.replicate (8 - State.slotsInUse s) .free

/-- The tags in use (R166). -/
def State.tagsInUse (s : State) : List Byte :=
  s.intake.results.map (fun r => r.cmd.tag) ++ (State.inProgress s).toList.map (fun c => c.tag) ++
    s.intake.waiting.map (fun c => c.tag)

/-- The state in which CANCEL finds the slot of a tag (R175, R197). -/
def State.slotStateByte (s : State) (tag : Byte) : Byte :=
  if s.intake.waiting.any (fun c => c.tag = tag) then 1
  else if (State.inProgress s).toList.any (fun c => c.tag = tag) then 2
  else if s.intake.results.any (fun r => r.cmd.tag = tag) then 3
  else 0

/-- The live count (R35). -/
def State.liveCount (s : State) : Nat := s.index.countP fun e => e.cls.isSome

/-- The corrupt count (R35). -/
def State.corruptCount (s : State) : Nat := s.index.countP fun e => e.cls.isNone

/-- The foreground is quiet (R117). -/
def State.quiet (s : State) : Bool := s.part = .ready && s.engine.job.isNone && s.intake.waiting.isEmpty

/-- The state of the controller (R107). -/
inductive ControllerState where
  | idle | reading | striking | erasing | eraseSuspended
  deriving DecidableEq, Repr

/-- The controller's state, named from its items (R107). -/
def Controller.named (c : Controller) : ControllerState :=
  match c.op with
  | some (.read _) => .reading
  | some (.strike _ _ _) => .striking
  | some (.erase _ _ _) => .erasing
  | none => if c.suspended.isSome then .eraseSuspended else .idle

/-- The state of background reclaim (R129). -/
inductive ReclaimState where
  | idle | erasing | suspended | verifying
  deriving DecidableEq, Repr

/-- Background reclaim's state follows the controller's handling of its claims (R129). -/
def Controller.reclaimState (c : Controller) : ReclaimState :=
  match c.op, c.suspended with
  | some (.erase .background e _), _ => if e.stage = .blankVerify then .verifying else .erasing
  | some (.strike _ .background _), _ => .verifying
  | _, some _ => .suspended
  | _, none => .idle

/-- The erase record (R124): the frame under erase, and whether the erase is a demand erase. It names no frame while the mark
strike after a failed demand ERASE progresses, nor for an ERASE that is neither background nor demand: DEDUCED, log entry 34. -/
def State.eraseRecord (s : State) : Option (Frame × Bool) :=
  match s.ctrl.op, s.engine.job with
  | some (.erase .background e _), _ => some (e.frame, false)
  | some (.strike _ .background _), _ => s.pools.reclaim.head?.map fun f => (f, false)
  | some (.erase .foreground e _), some ⟨_, .takeErase _⟩ => some (e.frame, true)
  | _, _ => s.ctrl.suspended.map fun e => (e.frame, false)

end Sys2Proof.Machine
end

