-- ==== Sys2Proof/Machine/Layout.lean ====
section
/-! DEFINITION. What the part shifts out: the code values of R195, result records (R198), the INFO answer (R197). -/

namespace Sys2Proof.Machine

/-- The value of a code (R195). -/
def Code.byte : Code → Byte
  | .done => 0x00
  | .cancelled => 0x01
  | .notFound => 0x02
  | .corrupt => 0x03
  | .badArgument => 0x04
  | .noPolicy => 0x05
  | .policyFault => 0x06
  | .notPermitted => 0x07
  | .keyExists => 0x08
  | .full => 0x09
  | .arrayFault => 0x0A
  | .held => 0x0B
  | .epochUnset => 0x0C
  | .early => 0x0D
  | .lapsed => 0x0E
  | .spent => 0x0F
  | .short => 0x10
  | .overLimit => 0x11
  | .limit => 0x12
  | .alreadySet => 0x13
  | .tooLate => 0x14
  | .epochBackward => 0x15
  | .noneWaiting => 0x16
  | .notReady => 0x17
  | .isOpen => 0x18
  | .accepted => 0x20
  | .queueFull => 0x21
  | .tagZero => 0x22
  | .tagInUse => 0x23
  | .frameError => 0x24
  | .lengthError => 0x25
  | .unknownCommand => 0x26

/-- The flags byte of a record (R198). Bits 7 and 6, which R198 does not name, are sent 0: DESIGN CHOICE, log entry 29. -/
def Flags.byte (f : Flags) : Byte :=
  (if f.more then 0x20 else 0) ||| (if f.corrupt then 0x10 else 0) ||| (if f.skewed then 0x08 else 0) |||
    (if f.retired then 0x04 else 0) ||| (if f.degraded then 0x02 else 0) ||| (if f.skewRepaired then 0x01 else 0)

/-- One presence bit: set when the item is there. -/
def presenceBit {α : Type} (x : Option α) (bit : Byte) : Byte := if x.isSome then bit else 0

/-- A two-byte item, zero bytes when it is absent (R198). -/
def item16 (x : Option Nat) : List Byte := be16 (x.getD 0)

/-- The status byte of a class: H'00 UNCONFIGURED, H'01 SET, H'02 FAULTED (R197). -/
def ClassStatus.byte : ClassStatus → Byte
  | .unconfigured => 0
  | .set _ => 1
  | .faulted => 2

/-- The record fields a class status carries. -/
def ClassStatus.policy : ClassStatus → Option Policy
  | .set p => some p
  | .unconfigured => none
  | .faulted => none

/-- The eight bytes of the six yes/no fields and the maximum, zero when absent (R198). -/
def policyItem : Option Policy → List Byte
  | none => List.replicate 8 0
  | some p =>
    [boolByte p.drawPermitted, boolByte p.topupPermitted, boolByte p.revokePermitted, boolByte p.retireWhenSpent,
      boolByte p.startHeld, boolByte p.windowRequired] ++ be16 p.maxUnits

/-- The presence byte of a payload (R198). A bit that the payload table gives to no item is sent 0: DESIGN CHOICE, log
entry 29. -/
def Payload.presence : Payload → Byte
  | .nothing => 0
  | .issue _ frame gen allowance _ => presenceBit frame 0x80 ||| presenceBit gen 0x40 ||| presenceBit allowance 0x20
  | .lookup _ gen report => presenceBit gen 0x80 ||| presenceBit report 0x40
  | .draw _ gen _ remaining => presenceBit gen 0x80 ||| presenceBit remaining 0x40
  | .relocation _ frame gen allowance remaining topups _ =>
    presenceBit frame 0x80 ||| presenceBit gen 0x40 ||| presenceBit allowance 0x20 ||| presenceBit remaining 0x10 |||
      presenceBit topups 0x08
  | .revoke _ frame gen => presenceBit frame 0x80 ||| presenceBit gen 0x40
  | .list _ => 0
  | .configure cls status =>
    presenceBit cls 0x80 ||| presenceBit status 0x40 ||| presenceBit (status.bind ClassStatus.policy) 0x20
  | .purge _ _ => 0
  | .format _ _ _ _ _ => 0

/-- The report part of a LOOKUP payload (R198). -/
def LookupReport.bytes (r : LookupReport) : List Byte :=
  be16 r.frame.val ++ [BitVec.ofNat 8 r.cls.val] ++ be16 r.allowance ++ [boolByte r.window.isSome] ++
    be32 (r.window.getD r.absentWindow).opens ++ be32 (r.window.getD r.absentWindow).closes ++
    [BitVec.ofNat 8 r.topups] ++ be16 r.countA ++ be16 r.countB ++ be16 r.remaining ++ [Code.byte r.condition] ++
    [BitVec.ofNat 8 r.label.length] ++ r.label

/-- One entry of a LIST payload (R40, R198). Bits 7 to 1 of the entry flags byte, of which R198 names bit 0 alone, are sent 0:
DESIGN CHOICE, log entry 29. -/
def Entry.bytes (e : Entry) : List Byte :=
  be32 e.key ++ be16 e.frame.val ++ be16 e.gen.toNat ++ [boolByte e.cls.isNone] ++
    [BitVec.ofNat 8 ((e.cls.map fun k => k.val).getD 0)]

/-- The payload bytes (R198). FORMAT's system failures item has one byte, while R161 bounds the count by none: a count above
255 is sent modulo 256, DESIGN CHOICE, log entry 30 (the outcome of R162 uses the full count). FORMAT's part state byte, to which
R162 and R198 give no coding, and the status byte of CONFIGURE CLASS are coded as INFO codes them: DEDUCED, log entry 20. -/
def Payload.bytes : Payload → List Byte
  | .nothing => []
  | .issue key frame gen allowance failed =>
    be32 key ++ item16 (frame.map fun f => f.val) ++ item16 (gen.map fun g => g.toNat) ++ item16 allowance ++
      [BitVec.ofNat 8 failed]
  | .lookup key gen report =>
    be32 key ++ item16 (gen.map fun g => g.toNat) ++
      (match report with
        | none => []
        | some r => LookupReport.bytes r)
  | .draw key gen drawn remaining =>
    be32 key ++ item16 (gen.map fun g => g.toNat) ++ be16 drawn ++ item16 remaining
  | .relocation key frame gen allowance remaining topups failed =>
    be32 key ++ item16 (frame.map fun f => f.val) ++ item16 (gen.map fun g => g.toNat) ++ item16 allowance ++
      item16 remaining ++ [BitVec.ofNat 8 (topups.getD 0)] ++ [BitVec.ofNat 8 failed]
  | .revoke key frame gen => be32 key ++ item16 (frame.map fun f => f.val) ++ item16 (gen.map fun g => g.toNat)
  | .list entries => BitVec.ofNat 8 entries.length :: (entries.map Entry.bytes).flatten
  | .configure cls status =>
    [cls.getD 0] ++ [(status.map ClassStatus.byte).getD 0] ++ policyItem (status.bind ClassStatus.policy)
  | .purge moved failed => be16 moved ++ be16 failed
  | .format part label erased newlyBad systemFailures =>
    [PartState.field part] ++ be32 label ++ be16 erased ++ be16 newlyBad ++ [BitVec.ofNat 8 systemFailures]

/-- A record's header and payload (R198). -/
def Record.body (r : Record) : List Byte :=
  [BitVec.ofNat 8 (10 + (Payload.bytes r.result.payload).length), r.cmd.tag, r.cmd.code, Code.byte r.result.outcome,
    Flags.byte r.result.flags, Payload.presence r.result.payload] ++ Payload.bytes r.result.payload

/-- The bytes of a record: header, payload, link CRC (R198, R188). -/
def Record.bytes (r : Record) : List Byte := Record.body r ++ be32 (linkCrc (Record.body r))

/-- The epoch flag and the four epoch bytes; unset, the bytes are free (R197, log entry 7). -/
def epochBytes (epoch : Option Word) (uses : Nat) : List Byte :=
  boolByte epoch.isSome :: be32 (epoch.getD (Config.unsetEpochField uses))

/-- The store label flag and the four label bytes; absent, the bytes are free (R197, log entry 7). -/
def labelBytes (label : Option Word) (uses : Nat) : List Byte :=
  boolByte label.isSome :: be32 (label.getD (Config.absentLabelField uses))

/-- The 16 holds as one number: bit 15 − k for class k (R197). -/
def holdsNat (holds : Vector Bool 16) : Nat := holds.toList.foldl (fun n b => 2 * n + (if b then 1 else 0)) 0

/-- The seven mount report counters in the order of R157. -/
def MountReport.bytes (r : MountReport) : List Byte :=
  be16 r.free ++ be16 r.dirty ++ be16 r.abandoned ++ be16 r.duplicates ++ be16 r.irregular ++ be16 r.orphans ++
    be16 r.corrupt

/-- The first 60 bytes of the INFO answer (R197). Bits 7 to 2 of the indications byte, which R197 does not name, are sent 0:
DESIGN CHOICE, log entry 29. -/
def State.infoBody (s : State) : List Byte :=
  [PartState.field s.part, boolByte s.intake.restartPending, BitVec.ofNat 8 s.intake.waiting.length,
    ((State.inProgress s).map fun c => c.tag).getD 0, BitVec.ofNat 8 s.intake.results.length] ++
    be16 s.pools.free.length ++ be16 s.pools.reclaim.length ++ be16 s.pools.quarantine.length ++
    be16 s.pools.bad.length ++ be16 (State.liveCount s) ++ be16 (State.corruptCount s) ++
    epochBytes s.engine.epoch s.freeUses ++ s.policies.toList.map ClassStatus.byte ++
    be16 (holdsNat s.engine.holds) ++ labelBytes s.mount.label s.freeUses ++
    [(if State.lowFree s then 2 else 0) ||| (if s.link.faultEvent then 1 else 0)] ++ MountReport.bytes s.mount.report

/-- The 64 bytes of the INFO answer (R197, R188). -/
def State.infoBytes (s : State) : List Byte := State.infoBody s ++ be32 (linkCrc (State.infoBody s))

end Sys2Proof.Machine
end

