-- ==== Sys2Proof/Machine/Engine.lean ====
section
/-! DEFINITION. The grant engine: the posting of a result and the clearing for a RESTART (R172, R178, R179), takes and demand
reclaim (R65, R126, R131), the writing of a new record (R66, R67), the end of a grant and its fallback (R58, R85, R86),
FORMAT's sweep (R160), and what the command in progress does at the completion of its READ, STRIKE or ERASE. -/

namespace Sys2Proof.Machine

/-! ### Steps, records, the volatile state -/

/-- The part with every volatile piece at its value after a reset, and nothing begun: the array, the queue of waiting
commands and the counter of free values stay; the pins are as given. -/
def State.cleared (s : State) (pins : Pins) (transaction : Option Transaction) : State :=
  { State.reset with
      pins := pins
      link := { State.reset.link with transaction := transaction }
      ctrl := Controller.idle
      mount := { State.reset.mount with work := none }
      array := s.array
      pending := s.pending
      freeUses := s.freeUses }

/-- The volatile state is cleared for a pending RESTART and a mount begins (R179, R142). The transaction on the link goes
on. -/
def State.clearForRestart (s : State) : State :=
  State.beginMount (State.cleared s s.pins s.link.transaction)

/-- The command in progress goes on to a step. -/
def State.goStep (s : State) (cmd : Command) (step : EngineStep) : State :=
  { s with engine := { s.engine with job := some { cmd := cmd, step := step } } }

/-- The command goes on to a step that waits for a foreground claim. -/
def State.claimStep (s : State) (cmd : Command) (step : EngineStep) (k : Claim) : State :=
  State.claim (State.goStep s cmd step) k

/-- The command in progress completes: its record joins the tail of the result queue and the engine has no command in
progress (R172). When a RESTART is pending the record is not posted and the volatile state is cleared (R178, R179). -/
def State.post (s : State) (cmd : Command) (r : Result) : State :=
  if s.intake.restartPending then State.clearForRestart s
  else
    { s with
        engine := { s.engine with job := none }
        intake := { s.intake with results := s.intake.results ++ [{ cmd := cmd, result := r }] } }

/-- FAULT_EVENT is set (R137). -/
def State.setFaultEvent (s : State) : State := { s with link := { s.link with faultEvent := true } }

/-- The frame pool manager's collections changed. -/
def State.setPools (s : State) (p : FramePools) : State := { s with pools := p }

/-- The index changed. -/
def State.setIndex (s : State) (index : List Entry) : State := { s with index := index }

/-- The frame held by the command in progress (R64). -/
def State.setHeld (s : State) (held : Option Frame) : State := { s with engine := { s.engine with held := held } }

/-- The place a frame goes to when its mark strike completes: the bad-frame map, or the quarantine set after a failure
(R134, R135). -/
def FramePools.afterMark (p : FramePools) (f : Frame) (verified : Bool) : FramePools :=
  if verified then { p with bad := insertFrame f p.bad } else { p with quarantine := insertFrame f p.quarantine }

/-- The values LOOKUP, DRAW, TOPUP and REVOKE take at their dispatch (R46, R95). -/
def State.snapshot (s : State) : Snapshot :=
  { epoch := s.engine.epoch, holds := s.engine.holds, policies := s.policies }

/-- An entry is marked corrupt after an unsound READ through it (R32). -/
def State.markCorrupt (s : State) (e : Entry) (img : Image) : State :=
  State.setIndex s (markEntry e.key (Image.gen img) s.index)

/-- A plain result: an outcome, no flag, the command items. -/
def plainResult (outcome : Code) (payload : Payload) : Result := { outcome := outcome, flags := {}, payload := payload }

/-! ### Takes, demand reclaim, and the writing of a new record -/

/-- The result of a command that wrote no record: FULL or ARRAY_FAULT (R72, R80). -/
def Writing.failure (w : Writing) (outcome : Code) : Result :=
  match w.old with
  | none => plainResult outcome (.issue w.record.key none none none w.failed)
  | some o =>
    plainResult outcome
      (.relocation w.record.key (some o.frame) (some o.gen) none (some o.remaining) (some o.topups) w.failed)

/-- The result of a record written into a frame (R72, R80). -/
def Writing.success (w : Writing) (new : Frame) (degraded : Bool) : Result :=
  match w.old with
  | none =>
    plainResult .done (.issue w.record.key (some new) (some w.record.gen) (some w.record.allowance) w.failed)
  | some _ =>
    { outcome := .done
      flags := { degraded := degraded }
      payload :=
        .relocation w.record.key (some new) (some w.record.gen) (some w.record.allowance) (some w.record.allowance)
          (some w.record.topups) w.failed }

/-- The take answers with a frame, held from that moment, and the OPENING strike is claimed (R65, R66). -/
def State.writeInto (s : State) (cmd : Command) (w : Writing) (f : Frame) : State :=
  State.claimStep (State.setHeld s (some f)) cmd (.openingStrike w) (.strike f (markerStrike 0x80))

/-- The take answers with failure: the command ends with FULL (R65, R132). -/
def State.takeFails (s : State) (cmd : Command) (w : Writing) : State := State.post s cmd (Writing.failure w .full)

/-- Steps 3 and 4 of demand reclaim: a foreground ERASE of the head of the reclaim queue, or the take fails (R131). -/
def State.demandNext (s : State) (cmd : Command) (w : Writing) : State :=
  match s.pools.reclaim with
  | f :: _ => State.claimStep s cmd (.takeErase w) (.erase f)
  | [] => State.takeFails s cmd w

/-- Demand reclaim (R131, R118): a suspended erase is resumed in the foreground, a progressing background ERASE is taken
over where it stands, a background mark strike is waited for; else steps 3 and 4. -/
def State.demandReclaim (s : State) (cmd : Command) (w : Writing) : State :=
  match s.ctrl.suspended, s.ctrl.op with
  | some e, _ =>
    { State.goStep s cmd (.takeErase w) with
        ctrl := { s.ctrl with op := some (.erase .foreground e 0), suspended := none } }
  | none, some (.erase .background e since) =>
    { State.goStep s cmd (.takeErase w) with ctrl := { s.ctrl with op := some (.erase .foreground e since) } }
  | none, some (.strike _ .background _) => State.claimStep s cmd (.takeWait w) .demand
  | none, _ => State.demandNext s cmd w

/-- A take (R126): the head of the free pool, or demand reclaim when the pool is empty. -/
def State.take (s : State) (cmd : Command) (w : Writing) : State :=
  match s.pools.free with
  | f :: rest => State.writeInto (State.setPools s { s.pools with free := rest }) cmd w f
  | [] => State.demandReclaim s cmd w

/-- A strike of a new frame failed: the frame's mark is struck, the frame still held (R67, R134). -/
def State.newFrameFailed (s : State) (cmd : Command) (w : Writing) (f : Frame) : State :=
  State.claimStep s cmd (.newFrameMark f w) (.strike 2 (markStrike f))

/-- After the mark strike of a failed new frame: a further take while fewer than three frames have failed (R67). -/
def State.newFrameReleased (s : State) (cmd : Command) (w : Writing) (f : Frame) (verified : Bool) : State :=
  let t := State.setHeld (State.setPools s (FramePools.afterMark s.pools f verified)) none
  let w' : Writing := { w with failed := w.failed + 1 }
  if w'.failed < 3 then State.take t cmd w' else State.post t cmd (Writing.failure w' .arrayFault)

/-- The LIVE strike of a new frame verified: ISSUE inserts its entry (R28, R71); a relocation claims the MOVED strike of its
old frame (R78). -/
def State.newFrameLive (s : State) (cmd : Command) (w : Writing) (f : Frame) : State :=
  match w.old with
  | none =>
    State.post
      (State.setHeld
        (State.setIndex s
          (insertEntry { key := w.record.key, frame := f, gen := 0, cls := some w.record.cls } s.index))
        none)
      cmd (Writing.success w f false)
  | some o =>
    State.claimStep s cmd (.movedStrike w o f) (.strike o.frame (markerStrike (transitionBits .moved o.marker)))

/-! ### The end of a grant, and the fallback -/

/-- The fallback of R86: a foreground ERASE of the frame, which the command holds (R64). -/
def State.fallback (s : State) (cmd : Command) (f : Frame) (fallback lost : Result) : State :=
  State.claimStep (State.setHeld s (some f)) cmd (.fallbackErase fallback lost) (.erase f)

/-- The MOVED strike of a relocation's old frame completed (R30, R78, R79). -/
def State.movedDone (s : State) (cmd : Command) (w : Writing) (o : OldGrant) (new : Frame) (verified : Bool) : State :=
  let t := State.setIndex s (repointEntry w.record.key new w.record.gen s.index)
  if verified then
    State.post
      (State.setHeld (State.setPools t { t.pools with reclaim := t.pools.reclaim ++ [o.frame] }) none)
      cmd (Writing.success w new false)
  else State.fallback t cmd o.frame (Writing.success w new true) (Writing.success w new true)

/-- The RETIRED strike of a grant's frame completed (R31, R58, R85). -/
def State.retiredDone (s : State) (cmd : Command) (e : Ending) (f : Frame) (verified : Bool) : State :=
  let t := State.setIndex s (removeEntry e.key s.index)
  if verified then
    State.post (State.setPools t { t.pools with reclaim := t.pools.reclaim ++ [f] }) cmd e.retired
  else State.fallback t cmd f e.fallback e.lost

/-- The RETIRED strike is claimed; with no bit to strike it counts as completed and verified (R85, R110). -/
def State.retire (s : State) (cmd : Command) (e : Ending) (f : Frame) (bits : Byte) : State :=
  if bits = 0 then State.retiredDone s cmd e f true
  else State.claimStep s cmd (.retiredStrike e) (.strike f (markerStrike bits))

/-! ### FORMAT -/

/-- FORMAT's field strike of the format record (R160 step 5). -/
def State.formatRecordStrike (s : State) (cmd : Command) (f : Formatting) : State :=
  State.claimStep s cmd (.formatRecord f) (.strike 0 (.field 0 (formatBytes f.label)))

/-- FORMAT's ERASE of the next grant frame from `n` on, or the format record strike when there is none (R160 steps 4, 5). -/
def State.formatSweep (s : State) (cmd : Command) (f : Formatting) (n : Nat) : State :=
  match nextFrame s.pools.bad 2048 n with
  | some g => State.claimStep s cmd (.formatErase f) (.erase g)
  | none => State.formatRecordStrike s cmd f

/-- FORMAT's ERASE of a frame completed (R160, R161). -/
def State.formatErased (s : State) (cmd : Command) (f : Formatting) (g : Frame) (verified : Bool) : State :=
  if systemFrame g then
    let f' : Formatting := if verified then f else { f with systemFailures := f.systemFailures + 1 }
    if g.val = 0 then State.claimStep s cmd (.formatErase f') (.erase 1) else State.formatSweep s cmd f' 3
  else if verified then State.formatSweep s cmd { f with erased := f.erased + 1 } (g.val + 1)
  else State.claimStep s cmd (.formatMark g f) (.strike 2 (markStrike g))

/-- FORMAT's mark strike of a frame that could not be erased completed (R161). -/
def State.formatMarked (s : State) (cmd : Command) (f : Formatting) (g : Frame) (verified : Bool) : State :=
  if verified then
    State.formatSweep (State.setPools s { s.pools with bad := insertFrame g s.pools.bad }) cmd
      { f with newlyBad := f.newlyBad + 1 } (g.val + 1)
  else State.formatSweep s cmd { f with systemFailures := f.systemFailures + 1 } (g.val + 1)

/-- FORMAT's record strike completed: a mount begins, FORMAT still in progress (R160); with a RESTART pending the volatile
state is cleared instead (R164). -/
def State.formatWritten (s : State) (cmd : Command) (f : Formatting) (verified : Bool) : State :=
  if s.intake.restartPending then State.clearForRestart s
  else
    State.beginMount
      (State.goStep s cmd
        (.formatMount (if verified then f else { f with systemFailures := f.systemFailures + 1 })))

/-- FORMAT's result, posted when the mount that follows it ends (R162). -/
def Formatting.result (f : Formatting) (part : PartState) : Result :=
  plainResult (if f.systemFailures = 0 && part = .ready then .done else .arrayFault)
    (.format part f.label f.erased f.newlyBad f.systemFailures)

/-! ### LOOKUP -/

/-- LOOKUP's READ completed (R36 cases 3 and 4, R37). -/
def State.lookupRead (s : State) (cmd : Command) (snap : Snapshot) (e : Entry) (f : Frame) (img : Image) : State :=
  if Image.soundFor img e then
    let g := Image.grant img
    let report : LookupReport :=
      { frame := f, cls := g.cls, allowance := g.allowance, window := g.window,
        absentWindow :=
          { opens := Config.absentOpensField s.freeUses, closes := Config.absentClosesField s.freeUses },
        topups := g.topups, countA := g.countA, countB := g.countB, remaining := Grant.remaining g,
        condition := grantCondition snap.policies[g.cls] snap.holds[g.cls] snap.epoch g, label := g.label }
    State.post { s with freeUses := s.freeUses + 1 } cmd
      { outcome := .done, flags := { skewed := Grant.skewed g }, payload := .lookup e.key (some g.gen) (some report) }
  else
    State.post (State.markCorrupt s e img) cmd
      (plainResult .corrupt (.lookup e.key (some (Image.gen img)) none))

/-! ### DRAW -/

/-- The effective consumed count c of a DRAW's READ. -/
def Drawing.start (d : Drawing) : Nat := Grant.effective d.grant

/-- The target t of a DRAW (R50). -/
def Drawing.target (d : Drawing) : Nat := Drawing.start d + d.units

/-- A DRAW's result that strikes nothing: an outcome, the generation and the remaining units read (R48, R49, R50). -/
def drawRefused (outcome : Code) (g : Grant) : Result :=
  plainResult outcome (.draw g.key (some g.gen) 0 (some (Grant.remaining g)))

/-- The units d to be drawn, or none for SHORT (R50). -/
def drawUnits (mode : DrawMode) (units remaining : Nat) : Option Nat :=
  if units ≤ remaining then some units
  else
    match mode with
    | .exact => none
    | .upto => some remaining

/-- DRAW's READ completed: the checks of R47 to R50 in order, then the strike of copy A (R52). -/
def State.drawRead (s : State) (cmd : Command) (snap : Snapshot) (e : Entry) (f : Frame) (img : Image) : State :=
  if Image.soundFor img e then
    let g := Image.grant img
    match drawArgs cmd.args, snap.policies[g.cls], grantCondition snap.policies[g.cls] snap.holds[g.cls] snap.epoch g with
    | some (units, mode), .set p, .isOpen =>
      if !p.drawPermitted then State.post s cmd (drawRefused .notPermitted g)
      else if p.maxUnits < units then State.post s cmd (drawRefused .overLimit g)
      else
        match drawUnits mode units (Grant.remaining g) with
        | none => State.post s cmd (drawRefused .short g)
        | some d =>
          State.claimStep s cmd (.drawStrikeA { grant := g, units := d, retire := p.retireWhenSpent } e)
            (.strike f (tallyStrike tallyA g.countA (Grant.effective g + d)))
    | _, _, condition => State.post s cmd (drawRefused condition g)
  else
    State.post (State.markCorrupt s e img) cmd
      (plainResult .corrupt (.draw e.key (some (Image.gen img)) 0 none))

/-- DRAW's strike of copy A completed: the strike of copy B is claimed, whether it verified or failed (R52). -/
def State.drawStruckA (s : State) (cmd : Command) (d : Drawing) (e : Entry) (f : Frame) (verified : Bool) : State :=
  State.claimStep s cmd (.drawStrikeB d e verified)
    (.strike f (tallyStrike tallyB d.grant.countB (Drawing.target d)))

/-- SKEW_REPAIRED: the lagging copy's strike verified (R53). -/
def Drawing.repaired (d : Drawing) (verifiedA verifiedB : Bool) : Bool :=
  (d.grant.countA < Drawing.start d && verifiedA) || (d.grant.countB < Drawing.start d && verifiedB)

/-- The flags of a DRAW that ends DONE (R54, R55, R58, R59). -/
def Drawing.flags (d : Drawing) (verifiedA verifiedB retired degraded : Bool) : Flags :=
  { retired := retired, degraded := degraded, skewRepaired := Drawing.repaired d verifiedA verifiedB }

/-- The result of a DRAW that ends DONE (R54, R55, R63). -/
def Drawing.done (d : Drawing) (flags : Flags) : Result where
  outcome := .done
  flags := flags
  payload := .draw d.grant.key (some d.grant.gen) d.units (some (d.grant.allowance - Drawing.target d))

/-- DRAW's strike of copy B completed: the read-back when both failed (R56), else DONE (R54, R55), after the automatic
retire when it applies (R58). -/
def State.drawStruckB (s : State) (cmd : Command) (d : Drawing) (e : Entry) (verifiedA : Bool) (f : Frame)
    (verifiedB : Bool) : State :=
  if !verifiedA && !verifiedB then State.claimStep s cmd (.drawReadBack d e) (.read f)
  else
    let degraded := !(verifiedA && verifiedB)
    if d.grant.allowance - Drawing.target d = 0 && d.retire then
      State.retire s cmd
        { key := e.key
          retired := Drawing.done d (Drawing.flags d verifiedA verifiedB true degraded)
          fallback := Drawing.done d (Drawing.flags d verifiedA verifiedB true true)
          lost := Drawing.done d (Drawing.flags d verifiedA verifiedB true true) }
        f 0x30
    else State.post s cmd (Drawing.done d (Drawing.flags d verifiedA verifiedB false degraded))

/-- DRAW's read-back completed (R56). Where both STRIKEs failed R53 says that SKEW_REPAIRED is not set, and R56 sets it when the
lagging copy read back at or above c: the model follows R56 (DESIGN CHOICE, log entry 32). -/
def State.drawReadBack (s : State) (cmd : Command) (d : Drawing) (e : Entry) (img : Image) : State :=
  if Image.soundFor img e then
    let g := Image.grant img
    let c := Drawing.start d
    State.post s cmd
      { outcome := .arrayFault
        flags :=
          { degraded := true
            skewRepaired := (d.grant.countA < c && c ≤ g.countA) || (d.grant.countB < c && c ≤ g.countB) }
        payload := .draw e.key (some g.gen) (Grant.effective g - c) (some (Grant.remaining g)) }
  else
    State.post (State.markCorrupt s e img) cmd
      { outcome := .arrayFault
        flags := { degraded := true }
        payload := .draw e.key (some (Image.gen img)) d.units none }

/-! ### TOPUP, MOVE, REVOKE -/

/-- A relocation's result that carries the old grant as read (R75, R77, R80). -/
def relocationRefused (outcome : Code) (f : Frame) (g : Grant) : Result :=
  plainResult outcome
    (.relocation g.key (some f) (some g.gen) none (some (Grant.remaining g)) (some g.topups) 0)

/-- A relocation whose READ was unsound (R74, R77, R80). -/
def State.relocationCorrupt (s : State) (cmd : Command) (e : Entry) (img : Image) : State :=
  State.post (State.markCorrupt s e img) cmd
    (plainResult .corrupt (.relocation e.key none (some (Image.gen img)) none none none 0))

/-- TOPUP's READ completed: the checks of R75, then the take (R76). -/
def State.topupRead (s : State) (cmd : Command) (snap : Snapshot) (e : Entry) (f : Frame) (img : Image) : State :=
  if Image.soundFor img e then
    let g := Image.grant img
    match topupArgs cmd.args, snap.policies[g.cls] with
    | some (units, window), .set p =>
      if !p.topupPermitted then State.post s cmd (relocationRefused .notPermitted f g)
      else if g.topups = 255 then State.post s cmd (relocationRefused .limit f g)
      else if 1024 < Grant.remaining g + units then State.post s cmd (relocationRefused .limit f g)
      else State.take s cmd { record := topupRecord g units window, failed := 0, old := some (oldGrant f g) }
    | _, _ => State.post s cmd (relocationRefused .notPermitted f g)
  else State.relocationCorrupt s cmd e img

/-- MOVE's READ completed (R77). -/
def State.moveRead (s : State) (cmd : Command) (e : Entry) (f : Frame) (img : Image) : State :=
  if Image.soundFor img e then
    let g := Image.grant img
    if Grant.remaining g = 0 then State.post s cmd (relocationRefused .spent f g)
    else State.take s cmd { record := moveRecord g, failed := 0, old := some (oldGrant f g) }
  else State.relocationCorrupt s cmd e img

/-- The end of a grant by REVOKE (R85, R86, R88). -/
def revokeEnding (key : Word) (f : Frame) (gen : Gen) (corrupt : Bool) : Ending where
  key := key
  retired := { outcome := .done, flags := { corrupt := corrupt }, payload := .revoke key (some f) (some gen) }
  fallback :=
    { outcome := .done, flags := { corrupt := corrupt, degraded := true }
      payload := .revoke key (some f) (some gen) }
  lost :=
    { outcome := .arrayFault, flags := { corrupt := corrupt, degraded := true }
      payload := .revoke key (some f) (some gen) }

/-- REVOKE's READ completed: the corrupt path, or the sound path with its policy check, then the RETIRED strike (R83 to
R85). -/
def State.revokeRead (s : State) (cmd : Command) (snap : Snapshot) (e : Entry) (f : Frame) (img : Image) : State :=
  let bits := transitionBits .retired (img 0)
  match e.cls with
  | none => State.retire s cmd (revokeEnding e.key f e.gen true) f bits
  | some _ =>
    if Image.soundFor img e then
      let g := Image.grant img
      match snap.policies[g.cls] with
      | .set p =>
        if p.revokePermitted then State.retire s cmd (revokeEnding e.key f g.gen false) f bits
        else State.post s cmd (plainResult .notPermitted (.revoke e.key (some f) (some g.gen)))
      | _ => State.post s cmd (plainResult .notPermitted (.revoke e.key (some f) (some g.gen)))
    else State.retire (State.markCorrupt s e img) cmd (revokeEnding e.key f (Image.gen img) true) f bits

/-! ### CONFIGURE CLASS, PURGE ORPHANS -/

/-- The status of a class placed in the working copy. -/
def State.setStatus (s : State) (k : ClassNo) (status : ClassStatus) : State :=
  { s with policies := setClass s.policies k status }

/-- CONFIGURE CLASS's strike completed (R97, R98). -/
def State.configureStruck (s : State) (cmd : Command) (k : ClassNo) (p : Policy) (verified : Bool) : State :=
  if verified then
    State.post (State.setStatus s k (.set p)) cmd
      (plainResult .done (.configure (some (BitVec.ofNat 8 k.val)) (some (.set p))))
  else State.claimStep s cmd (.configureRead k) (.read 1)

/-- CONFIGURE CLASS's READ after a failed strike completed (R98). -/
def State.configureRead (s : State) (cmd : Command) (k : ClassNo) (img : Image) : State :=
  State.post (State.setStatus s k (Image.classStatus img k)) cmd
    (plainResult .arrayFault (.configure (some (BitVec.ofNat 8 k.val)) (some (Image.classStatus img k))))

/-- PURGE ORPHANS' strike of the next member, or its result when every member has been struck (R139, R140). -/
def State.purgeNext (s : State) (cmd : Command) (members : List Frame) (moved failed : Nat) : State :=
  match members with
  | f :: rest => State.claimStep s cmd (.purgeStrike rest moved failed) (.strike f (markerStrike 0xF0))
  | [] =>
    State.post s cmd
      { outcome := .done, flags := { degraded := failed ≠ 0 }, payload := .purge moved failed }

/-- PURGE ORPHANS' strike of a member completed: the frame joins the tail of the reclaim queue (R139). -/
def State.purgeStruck (s : State) (cmd : Command) (f : Frame) (rest : List Frame) (moved failed : Nat)
    (verified : Bool) : State :=
  State.purgeNext
    (State.setPools s
      { s.pools with quarantine := removeFrame f s.pools.quarantine, reclaim := s.pools.reclaim ++ [f] })
    cmd rest (moved + 1) (if verified then failed else failed + 1)

/-! ### Demand reclaim's and the fallback's completions -/

/-- A demand ERASE completed (R131). -/
def State.demandErased (s : State) (cmd : Command) (w : Writing) (f : Frame) (verified : Bool) : State :=
  if verified then
    State.writeInto (State.setPools s { s.pools with reclaim := removeFrame f s.pools.reclaim }) cmd w f
  else State.claimStep s cmd (.takeMark f w) (.strike 2 (markStrike f))

/-- The mark strike after a failed demand ERASE completed (R131, R134, R135). -/
def State.demandMarked (s : State) (cmd : Command) (w : Writing) (f : Frame) (verified : Bool) : State :=
  State.demandNext
    (State.setPools s
      (FramePools.afterMark { s.pools with reclaim := removeFrame f s.pools.reclaim } f verified))
    cmd w

/-- The fallback ERASE completed (R86). -/
def State.fallbackErased (s : State) (cmd : Command) (fallback lost : Result) (f : Frame) (verified : Bool) : State :=
  if verified then
    State.post (State.setHeld (State.setPools s { s.pools with free := s.pools.free ++ [f] }) none) cmd fallback
  else State.claimStep s cmd (.fallbackMark f fallback lost) (.strike 2 (markStrike f))

/-- The mark strike after a failed fallback ERASE completed (R86, R135). -/
def State.fallbackMarked (s : State) (cmd : Command) (fallback lost : Result) (f : Frame) (verified : Bool) : State :=
  State.post (State.setHeld (State.setPools s (FramePools.afterMark s.pools f verified)) none) cmd
    (if verified then fallback else lost)

/-! ### What the command in progress does at a completion -/

/-- A READ claimed by the command in progress completed (R109). -/
def State.engineRead (s : State) (j : Job) (f : Frame) (img : Image) : State :=
  match j.step with
  | .lookupRead snap e => State.lookupRead s j.cmd snap e f img
  | .drawRead snap e => State.drawRead s j.cmd snap e f img
  | .drawReadBack d e => State.drawReadBack s j.cmd d e img
  | .topupRead snap e => State.topupRead s j.cmd snap e f img
  | .moveRead e => State.moveRead s j.cmd e f img
  | .revokeRead snap e => State.revokeRead s j.cmd snap e f img
  | .configureRead k => State.configureRead s j.cmd k img
  | .formatMapRead fm =>
    State.claimStep (State.setPools s { s.pools with bad := Image.badFrames img }) j.cmd (.formatErase fm) (.erase 0)
  | _ => s

/-- A STRIKE claimed by the command in progress completed (R110). -/
def State.engineStruck (s : State) (j : Job) (f : Frame) (verified : Bool) : State :=
  match j.step with
  | .drawStrikeA d e => State.drawStruckA s j.cmd d e f verified
  | .drawStrikeB d e verifiedA => State.drawStruckB s j.cmd d e verifiedA f verified
  | .takeMark g w => State.demandMarked s j.cmd w g verified
  | .openingStrike w =>
    if verified then State.claimStep s j.cmd (.bodyStrike w) (.strike f (recordStrike w.record))
    else State.newFrameFailed s j.cmd w f
  | .bodyStrike w =>
    if verified then State.claimStep s j.cmd (.liveStrike w) (.strike f (markerStrike 0x40))
    else State.newFrameFailed s j.cmd w f
  | .liveStrike w =>
    if verified then State.newFrameLive s j.cmd w f else State.newFrameFailed s j.cmd w f
  | .newFrameMark g w => State.newFrameReleased s j.cmd w g verified
  | .movedStrike w o new => State.movedDone s j.cmd w o new verified
  | .retiredStrike e => State.retiredDone s j.cmd e f verified
  | .fallbackMark g fallback lost => State.fallbackMarked s j.cmd fallback lost g verified
  | .configureStrike k p => State.configureStruck s j.cmd k p verified
  | .purgeStrike rest moved failed => State.purgeStruck s j.cmd f rest moved failed verified
  | .formatMark g fm => State.formatMarked s j.cmd fm g verified
  | .formatRecord fm => State.formatWritten s j.cmd fm verified
  | _ => s

/-- An ERASE claimed by the command in progress, or taken over for its take, completed (R113). -/
def State.engineErased (s : State) (j : Job) (f : Frame) (verified : Bool) : State :=
  match j.step with
  | .takeErase w => State.demandErased s j.cmd w f verified
  | .fallbackErase fallback lost => State.fallbackErased s j.cmd fallback lost f verified
  | .formatErase fm => State.formatErased s j.cmd fm f verified
  | _ => s

/-- The waiting foreground claim is served: its operation begins, or a demand claim goes on with its take (R114, R131). -/
def State.serveWaiting (s : State) : State :=
  match s.ctrl.waiting with
  | none => s
  | some .demand =>
    let t : State := { s with ctrl := { s.ctrl with waiting := none } }
    match t.engine.job with
    | some ⟨cmd, .takeWait w⟩ => State.take t cmd w
    | _ => t
  | some k => State.claim { s with ctrl := { s.ctrl with waiting := none } } k

end Sys2Proof.Machine
end

