-- ==== Sys2Proof/Machine/Mount.lean ====
section
/-! DEFINITION. The mount unit (R146 to R157): the reads of the system frames, the scan of the grant frames, the resolution of
candidates that share a key, the placing of every frame, and the end of a mount. -/

namespace Sys2Proof.Machine

/-- A mount ends in a part state (R144, R146, R156): MOUNTED is set, and a FORMAT in progress posts its result (R162). -/
def State.mountEnds (s : State) (part : PartState) : State :=
  let t : State :=
    { s with part := part, link := { s.link with mounted := true }, mount := { s.mount with work := none } }
  match t.engine.job with
  | some ⟨cmd, .formatMount f⟩ => State.post t cmd (Formatting.result f part)
  | _ => t

/-- Mount goes on to a step that waits for a foreground claim. -/
def State.mountClaim (s : State) (w : MountWork) (k : Claim) : State :=
  State.claim { s with mount := { s.mount with work := some w } } k

/-- The mount report changed. -/
def State.setReport (s : State) (r : MountReport) : State := { s with mount := { s.mount with report := r } }

/-- A scanned frame's placement recorded. -/
def MountWork.placed (w : MountWork) (f : Frame) (p : Placement) : MountWork :=
  { w with scanned := w.scanned ++ [(f, p)] }

/-- The placement of a loser replaces that of a candidate. -/
def MountWork.replaced (w : MountWork) (f : Frame) (p : Placement) : MountWork :=
  { w with scanned := w.scanned.map fun q => if q.1 = f then (f, p) else q }

/-- A frame that leaves the walk of R156: it has joined the bad-frame map. -/
def MountWork.dropped (w : MountWork) (f : Frame) : MountWork :=
  { w with scanned := w.scanned.filter fun q => q.1 ≠ f }

/-! ### The walk (R156) -/

/-- One frame placed by the walk (R156, R29), with its counter (R157). -/
def State.placeFrame (s : State) (q : Frame × Placement) : State :=
  match q.2 with
  | .free =>
    State.setReport (State.setPools s { s.pools with free := s.pools.free ++ [q.1] })
      { s.mount.report with free := s.mount.report.free + 1 }
  | .reclaim => State.setPools s { s.pools with reclaim := s.pools.reclaim ++ [q.1] }
  | .quarantine => State.setPools s { s.pools with quarantine := insertFrame q.1 s.pools.quarantine }
  | .candidate c =>
    match c.sound with
    | some (cls, _) =>
      State.setIndex s (insertEntry { key := c.key, frame := q.1, gen := c.gen, cls := some cls } s.index)
    | none =>
      State.setReport
        (State.setIndex s (insertEntry { key := c.key, frame := q.1, gen := c.gen, cls := none } s.index))
        { s.mount.report with corrupt := s.mount.report.corrupt + 1 }

/-- Step 6 begins: the walk over the scanned frames, in ascending order (R156). -/
def State.beginWalk (s : State) (w : MountWork) : State :=
  { s with mount := { s.mount with work := some { w with step := .walk } } }

/-- The walk reaches its next frame and places it; when it has placed every frame, READY is entered (R156). -/
def State.walkOn (s : State) (w : MountWork) : State :=
  match w.scanned with
  | [] => State.mountEnds s .ready
  | q :: rest =>
    State.placeFrame { s with mount := { s.mount with work := some { w with scanned := rest } } } q

/-- What the part does by itself between two commands or events: a mount in its walk goes on by one frame (R156, log entries 5
and 23). -/
def State.tick (s : State) : State :=
  match s.mount.work with
  | some w => if w.step = .walk then State.walkOn s w else s
  | none => s

/-! ### Duplicate resolution (R154, R155) -/

/-- The winner of two candidates of one key, `p` in the lower-numbered frame (R154); the other is the loser. -/
def firstWins (p q : Candidate) : Bool :=
  match p.sound, q.sound with
  | some _, none => true
  | none, some _ => false
  | some (_, r), some (_, t) =>
    if newer p.gen q.gen then true
    else if newer q.gen p.gen then false
    else if r ≠ t then r < t
    else p.frame < q.frame
  | none, none =>
    if newer p.gen q.gen then true else if newer q.gen p.gen then false else p.frame < q.frame

/-- Resolution goes on: the next candidate, in ascending frame order, meets the winner of its key so far. A pair's loser is
struck MOVED; a candidate whose key has no winner yet becomes it. When none remains the walk begins (R155, R156). R149 excepts
such a loser from its "not read again", while R155 gives no READ of it: no READ is claimed before the strike (DESIGN CHOICE, log
entry 33). -/
def State.resolve (s : State) (w : MountWork) : List Candidate → List Candidate → State
  | [], _ => State.beginWalk s w
  | q :: todo, winners =>
    match winners.find? fun p => p.key = q.key with
    | none => State.resolve s w todo (winners ++ [q])
    | some p =>
      let win := if firstWins p q then p else q
      let lose := if firstWins p q then q else p
      let winners' := winners.map fun c => if c.key = q.key then win else c
      State.mountClaim
        (State.setReport s { s.mount.report with duplicates := s.mount.report.duplicates + 1 })
        { w with step := .movedStrike (.resolve todo winners') }
        (.strike lose.frame (markerStrike (transitionBits .moved lose.marker)))

/-- The candidates of the scan, in ascending frame order. -/
def MountWork.candidates (w : MountWork) : List Candidate :=
  w.scanned.filterMap fun q =>
    match q.2 with
    | .candidate c => some c
    | _ => none

/-! ### The scan (R149 to R153) -/

/-- The scan claims a READ of the next frame from `n` on that is not bad, or resolution begins (R149, R155). -/
def State.scanFrom (s : State) (w : MountWork) (n : Nat) : State :=
  match nextFrame s.pools.bad 2048 n with
  | some f => State.mountClaim s { w with step := .scanRead } (.read f)
  | none => State.resolve s w (MountWork.candidates w) []

/-- The classification of a frame as read (R149, R153). -/
def classify (f : Frame) (img : Image) : Scanned :=
  match phaseOf (img 0) with
  | .blank => if Image.blank img then .free else .dirty
  | .opening => .abandoned
  | .live =>
    if Image.keyPairConsistent img then
      .candidate
        { frame := f, marker := img 0, key := Image.key img, gen := Image.gen img
          sound :=
            if Image.fieldsInRange img && Image.codePasses img then
              some ((Image.grant img).cls, Grant.remaining (Image.grant img))
            else none }
    else .orphan
  | .moved => .superseded
  | .retired => .ended

/-- The intended bits of a regularising strike: those of the decoded stage and of every earlier stage that read standing; none
for BLANK (R6, R150). -/
def regularisingBits (marker : Byte) : Byte :=
  match phaseOf marker with
  | .blank => 0
  | p => transitionBits p marker

/-- A scanned frame's classification takes effect: its counter, the retiring strike of an abandoned frame (R151), or its
placement and the next frame (R149). -/
def State.scanned (s : State) (w : MountWork) (f : Frame) (found : Scanned) : State :=
  let r := s.mount.report
  match found with
  | .free => State.scanFrom s (MountWork.placed w f .free) (f.val + 1)
  | .dirty =>
    State.scanFrom (State.setReport s { r with dirty := r.dirty + 1 }) (MountWork.placed w f .reclaim) (f.val + 1)
  | .abandoned =>
    State.mountClaim (State.setReport s { r with abandoned := r.abandoned + 1 }) { w with step := .retire }
      (.strike f (markerStrike 0x70))
  | .orphan =>
    State.scanFrom (State.setReport s { r with orphans := r.orphans + 1 }) (MountWork.placed w f .quarantine)
      (f.val + 1)
  | .superseded => State.scanFrom s (MountWork.placed w f .reclaim) (f.val + 1)
  | .ended => State.scanFrom s (MountWork.placed w f .reclaim) (f.val + 1)
  | .candidate c => State.scanFrom s (MountWork.placed w f (.candidate c)) (f.val + 1)

/-- A grant frame's READ completed: an irregular marker is counted and regularised first (R149, R150, R157). -/
def State.scanRead (s : State) (w : MountWork) (f : Frame) (img : Image) : State :=
  let found := classify f img
  let r := s.mount.report
  let t := if irregular (img 0) then State.setReport s { r with irregular := r.irregular + 1 } else s
  if regularisingBits (img 0) = 0 then State.scanned t w f found
  else
    State.mountClaim t { w with step := .regularise found } (.strike f (markerStrike (regularisingBits (img 0))))

/-- The classification after the regularising strike: the phase decoded before it; a candidate keeps its marker as the strike
left it (R150, R155). -/
def Scanned.regularised (found : Scanned) (verified : Bool) : Scanned :=
  match found with
  | .candidate c =>
    .candidate (if verified then { c with marker := c.marker &&& ~~~ (regularisingBits c.marker) } else c)
  | other => other

/-! ### The system frames (R146 to R148) -/

/-- Frame 0's READ completed (R146). -/
def State.mountFormat (s : State) (w : MountWork) (img : Image) : State :=
  if Image.blank img then State.mountEnds (State.setPools s { s.pools with bad := [] }) .unformatted
  else if Image.formatValid img then
    State.mountClaim { s with mount := { s.mount with label := some (Image.storeLabel img) } }
      { w with step := .readMap } (.read 2)
  else State.mountEnds (State.setPools s { s.pools with bad := [] }) .faulted

/-- Frame 2's READ completed (R147). -/
def State.mountMap (s : State) (w : MountWork) (img : Image) : State :=
  State.mountClaim (State.setPools s { s.pools with bad := Image.badFrames img }) { w with step := .readPolicies }
    (.read 1)

/-- Frame 1's READ completed: statuses and records loaded, holds set from *start held*, the scan begun (R148, R101). -/
def State.mountPolicies (s : State) (w : MountWork) (img : Image) : State :=
  let statuses := perClass (Image.classStatus img)
  State.scanFrom
    { s with
        policies := statuses
        engine := { s.engine with holds := perClass fun k => startHold (Image.classStatus img k) } }
    w 3

/-! ### Completions of mount's operations -/

/-- A mount ended a frame: it goes on with the scan after that frame, or with resolution. -/
def State.mountGoesOn (s : State) (w : MountWork) (f : Frame) : MountNext → State
  | .scan => State.scanFrom s w (f.val + 1)
  | .resolve todo winners => State.resolve s w todo winners

/-- The placement of a frame that mount ended by a strike, an erase or a mark strike (R151, R152, R155). -/
def MountWork.ended (w : MountWork) (f : Frame) (next : MountNext) (p : Placement) : MountWork :=
  match next with
  | .scan => MountWork.placed w f p
  | .resolve _ _ => MountWork.replaced w f p

/-- A READ claimed by the mount unit completed. -/
def State.mountRead (s : State) (w : MountWork) (f : Frame) (img : Image) : State :=
  match w.step with
  | .readFormat => State.mountFormat s w img
  | .readMap => State.mountMap s w img
  | .readPolicies => State.mountPolicies s w img
  | .scanRead => State.scanRead s w f img
  | _ => s

/-- The mount fallback: a foreground ERASE of the frame (R152). -/
def State.mountFallback (s : State) (w : MountWork) (f : Frame) (next : MountNext) : State :=
  State.mountClaim s { w with step := .fallbackErase next } (.erase f)

/-- A STRIKE claimed by the mount unit completed. A fallback's mark strike that fails sets FAULT_EVENT (R152, R136) where the
completion is reported, and the mount goes on; in the mount that follows a FORMAT it adds nothing to that FORMAT's system failures
(R161 read with R162: DESIGN CHOICE, log entry 35). -/
def State.mountStruck (s : State) (w : MountWork) (f : Frame) (verified : Bool) : State :=
  match w.step with
  | .regularise found => State.scanned s w f (Scanned.regularised found verified)
  | .retire =>
    if verified then State.mountGoesOn s (MountWork.ended w f .scan .reclaim) f .scan
    else State.mountFallback s w f .scan
  | .movedStrike next =>
    if verified then State.mountGoesOn s (MountWork.ended w f next .reclaim) f next
    else State.mountFallback s w f next
  | .fallbackMark g next =>
    if verified then
      State.mountGoesOn (State.setPools s { s.pools with bad := insertFrame g s.pools.bad }) (MountWork.dropped w g) g
        next
    else State.mountGoesOn s (MountWork.ended w g next .quarantine) g next
  | _ => s

/-- An ERASE claimed by the mount unit completed (R152). -/
def State.mountErased (s : State) (w : MountWork) (f : Frame) (verified : Bool) : State :=
  match w.step with
  | .fallbackErase next =>
    if verified then State.mountGoesOn s (MountWork.ended w f next .free) f next
    else State.mountClaim s { w with step := .fallbackMark f next } (.strike 2 (markStrike f))
  | _ => s

end Sys2Proof.Machine
end

