-- ==== Sys2Proof/Machine/ArrayEvents.lean ====
section
/-! DEFINITION. The events of the array controller (R106 to R122): completions of READ and STRIKE, the stages of an ERASE, the
quantum, suspension, and background reclaim's start and resume. An event whose conditions do not hold does not take place
and leaves the state as it is (log entry 3). -/

namespace Sys2Proof.Machine

/-! ### Reports to the foreground claimant -/

/-- The progressing operation has ended: nothing progresses. -/
def State.clearOp (s : State) : State := { s with ctrl := { s.ctrl with op := none } }

/-- The progressing operation replaced. -/
def State.setOp (s : State) (op : Op) : State := { s with ctrl := { s.ctrl with op := some op } }

/-- The array changed. -/
def State.setArray (s : State) (m : Memory) : State := { s with array := m }

/-- A READ's report goes to the mount unit while a mount is in progress, else to the command in progress (R108). -/
def State.reportRead (s : State) (f : Frame) (img : Image) : State :=
  match s.mount.work, s.engine.job with
  | some w, _ => State.mountRead s w f img
  | none, some j => State.engineRead s j f img
  | none, none => s

/-- A foreground STRIKE's report. -/
def State.reportStrike (s : State) (f : Frame) (verified : Bool) : State :=
  match s.mount.work, s.engine.job with
  | some w, _ => State.mountStruck s w f verified
  | none, some j => State.engineStruck s j f verified
  | none, none => s

/-- A foreground ERASE's report. -/
def State.reportErase (s : State) (f : Frame) (verified : Bool) : State :=
  match s.mount.work, s.engine.job with
  | some w, _ => State.mountErased s w f verified
  | none, some j => State.engineErased s j f verified
  | none, none => s

/-- A failed STRIKE or ERASE on a system frame sets FAULT_EVENT at its completion (R135, R136). -/
def State.systemFailure (s : State) (f : Frame) (verified : Bool) : State :=
  if systemFrame f && !verified then State.setFaultEvent s else s

/-! ### READ and STRIKE -/

/-- A background mark strike completed: the head of the reclaim queue goes to the bad-frame map or the quarantine set, and a
waiting claim is served (R119, R130, R134, R135). -/
def State.backgroundMarked (s : State) (verified : Bool) : State :=
  State.serveWaiting
    (match s.pools.reclaim with
      | [] => s
      | f :: rest => State.setPools s (FramePools.afterMark { s.pools with reclaim := rest } f verified))

/-- READ_COMPLETE: the frame image goes to the claimant (R109). -/
def State.readComplete (s : State) : State :=
  match s.ctrl.op with
  | some (.read f) => State.reportRead (State.clearOp s) f (Memory.image s.array f)
  | _ => s

/-- STRIKE_COMPLETE: the intended bits but for `stuck` are struck, and the verify's report goes to the claimant (R110). -/
def State.strikeComplete (s : State) (stuck : FrameBits) : State :=
  match s.ctrl.op with
  | some (.strike f claimant what) =>
    let m := Memory.strike s.array f (Strike.intended what) stuck
    let verified := Strike.verifies what (Memory.image m f)
    let t := State.systemFailure (State.setArray (State.clearOp s) m) f verified
    match claimant with
    | .foreground => State.reportStrike t f verified
    | .background => State.backgroundMarked t verified
  | _ => s

/-! ### The stages of an ERASE -/

/-- The ERASE completes verified blank (R113, R119, R130). -/
def State.eraseVerified (s : State) (claimant : Claimant) (f : Frame) : State :=
  match claimant with
  | .foreground => State.reportErase (State.clearOp s) f true
  | .background =>
    State.serveWaiting
      (State.setPools (State.clearOp s)
        { s.pools with reclaim := removeFrame f s.pools.reclaim, free := s.pools.free ++ [f] })

/-- The ERASE completes failed: a foreground claimant is told, background reclaim claims the mark strike before any waiting
claim is served (R113, R119, R130). -/
def State.eraseFailed (s : State) (claimant : Claimant) (f : Frame) : State :=
  match claimant with
  | .foreground => State.reportErase (State.systemFailure (State.clearOp s) f false) f false
  | .background => State.setOp s (.strike 2 .background (markStrike f))

/-- The retry of an ERASE: from stage 1, no progress (R113). -/
def Erase.retry (e : Erase) : Erase :=
  { frame := e.frame, attempt := .retry, stage := firstStage e.frame, progress := 0 }

/-- An attempt failed: the retry begins, or is deferred while a foreground claim waits for a background ERASE, or the ERASE
completes failed (R113, R119). -/
def State.attemptFailed (s : State) (claimant : Claimant) (e : Erase) : State :=
  match e.attempt with
  | .retry => State.eraseFailed s claimant e.frame
  | .first =>
    match claimant, s.ctrl.waiting with
    | .background, some _ =>
      State.serveWaiting { s with ctrl := { s.ctrl with op := none, suspended := some (Erase.retry e) } }
    | _, _ => State.setOp s (.erase claimant (Erase.retry e) 0)

/-- The ERASE goes on to a stage with `elapsed` µs more of progress, the array changed. -/
def State.eraseGoesOn (s : State) (m : Memory) (claimant : Claimant) (e : Erase) (since : Nat) (stage : Stage)
    (elapsed : Nat) : State :=
  State.setOp (State.setArray s m)
    (.erase claimant { e with stage := stage, progress := e.progress + elapsed } (since + elapsed))

/-- MARKER_RETIREMENT: stage 1 completes with its verify (R112). -/
def State.markerRetirement (s : State) (elapsed : Nat) (stuck : FrameBits) : State :=
  match s.ctrl.op with
  | some (.erase claimant e since) =>
    if e.stage = .markerRetirement then
      let m := Memory.retireMarker s.array e.frame stuck
      if Memory.image m e.frame 0 = 0 then State.eraseGoesOn s m claimant e since .bodyErase elapsed
      else State.attemptFailed (State.setArray s m) claimant e
    else s
  | _ => s

/-- The completion of a stage that makes no report: BODY_ERASE, MARKER_ERASE, SYSTEM_FRAME_ERASE (R112). -/
def State.stageComplete (s : State) (stage next : Stage) (elapsed : Nat) (stuck : FrameBits) : State :=
  match s.ctrl.op with
  | some (.erase claimant e since) =>
    if e.stage = stage then
      State.eraseGoesOn s (Memory.eraseStage s.array e.frame stage stuck) claimant e since next elapsed
    else s
  | _ => s

/-- BLANK_VERIFY: the attempt passes when every bit of the frame reads standing (R112, R113). -/
def State.blankVerify (s : State) : State :=
  match s.ctrl.op with
  | some (.erase claimant e _) =>
    if e.stage = .blankVerify then
      if Image.blank (Memory.image s.array e.frame) then State.eraseVerified s claimant e.frame
      else State.attemptFailed s claimant e
    else s
  | _ => s

/-! ### Quantum, suspension, background start and resume -/

/-- QUANTUM: the background ERASE reaches 400 µs of progress since it started or resumed (R115). Stage 1 ends before that, so
the event does not occur in it (R112). -/
def State.quantum (s : State) : State :=
  match s.ctrl.op with
  | some (.erase .background e since) =>
    if since < 400 && e.stage ≠ .markerRetirement then
      State.setOp s (.erase .background { e with progress := e.progress + (400 - since) } 400)
    else s
  | _ => s

/-- SUSPENSION takes effect: a background ERASE in stage 2 or 3, its quantum complete, a foreground claim waiting (R114, R115,
R116). The frame holds what its stage had reached, and the waiting claim begins. -/
def State.suspension (s : State) (elapsed : Nat) (undone : FrameBits) : State :=
  match s.ctrl.op, s.ctrl.waiting with
  | some (.erase .background e since), some _ =>
    if 400 ≤ since + elapsed && (e.stage = .bodyErase || e.stage = .markerErase) then
      State.serveWaiting
        { s with
            array := Memory.eraseStage s.array e.frame e.stage undone
            ctrl := { s.ctrl with op := none, suspended := some { e with progress := e.progress + elapsed } } }
    else s
  | _, _ => s

/-- BACKGROUND_START: the foreground quiet, the controller IDLE, the reclaim queue not empty (R117). -/
def State.backgroundStart (s : State) : State :=
  match s.ctrl.op, s.ctrl.suspended, s.pools.reclaim with
  | none, none, f :: _ => if State.quiet s then State.setOp s (.erase .background (Erase.start f) 0) else s
  | _, _, _ => s

/-- BACKGROUND_RESUME: the foreground quiet and an erase suspended (R117); the quantum is owed again (R115). -/
def State.backgroundResume (s : State) : State :=
  match s.ctrl.op, s.ctrl.suspended with
  | none, some e =>
    if State.quiet s then { s with ctrl := { s.ctrl with op := some (.erase .background e 0), suspended := none } } else s
  | _, _ => s

/-! ### The meanings -/

/-- READ_COMPLETE. -/
def execReadComplete (s : State) : Host.Outcome State Fault Refusal := .next (State.readComplete s)

/-- STRIKE_COMPLETE. -/
def execStrikeComplete (stuck : FrameBits) (s : State) : Host.Outcome State Fault Refusal :=
  .next (State.strikeComplete s stuck)

/-- MARKER_RETIREMENT. -/
def execMarkerRetirement (elapsed : Nat) (stuck : FrameBits) (s : State) : Host.Outcome State Fault Refusal :=
  .next (State.markerRetirement s elapsed stuck)

/-- BODY_ERASE: the 511 bytes other than the marker (R112). -/
def execBodyErase (elapsed : Nat) (stuck : FrameBits) (s : State) : Host.Outcome State Fault Refusal :=
  .next (State.stageComplete s .bodyErase .markerErase elapsed stuck)

/-- MARKER_ERASE: the marker byte (R112). -/
def execMarkerErase (elapsed : Nat) (stuck : FrameBits) (s : State) : Host.Outcome State Fault Refusal :=
  .next (State.stageComplete s .markerErase .blankVerify elapsed stuck)

/-- SYSTEM_FRAME_ERASE: all 512 bytes of a system frame (R112). -/
def execSystemFrameErase (elapsed : Nat) (stuck : FrameBits) (s : State) : Host.Outcome State Fault Refusal :=
  .next (State.stageComplete s .systemErase .blankVerify elapsed stuck)

/-- BLANK_VERIFY. -/
def execBlankVerify (s : State) : Host.Outcome State Fault Refusal := .next (State.blankVerify s)

/-- QUANTUM. -/
def execQuantum (s : State) : Host.Outcome State Fault Refusal := .next (State.quantum s)

/-- SUSPENSION. -/
def execSuspension (elapsed : Nat) (undone : FrameBits) (s : State) : Host.Outcome State Fault Refusal :=
  .next (State.suspension s elapsed undone)

/-- BACKGROUND_START. -/
def execBackgroundStart (s : State) : Host.Outcome State Fault Refusal := .next (State.backgroundStart s)

/-- BACKGROUND_RESUME. -/
def execBackgroundResume (s : State) : Host.Outcome State Fault Refusal := .next (State.backgroundResume s)

end Sys2Proof.Machine
end

