-- ==== Sys2Proof/Machine/Resets.lean ====
section
/-! DEFINITION. Power, RESETN and RESTART: what each cuts or abandons (R120, R121), what it clears, and the mount that follows
(R142, R177 to R179, R192, R193). -/

namespace Sys2Proof.Machine

/-- The cut of the controller's work: the operation in progress leaves what R120 gives, `undone` being the bits it had not
turned; a suspended erase leaves its frame as its suspension left it. -/
def State.cutArray (s : State) (undone : FrameBits) : Memory :=
  match s.ctrl.op with
  | none => s.array
  | some op => Op.cut s.array undone op

/-- The part held in reset: array work cut, every volatile block at its value after RESETN, the transaction ended (R192). -/
def State.heldInReset (s : State) (undone : FrameBits) (pins : Pins) : State :=
  State.cleared (State.setArray s (State.cutArray s undone)) pins none

/-- Power-on: an assertion of RESETN held until the supply is valid, then a release that begins a mount (R193). -/
def State.powerOn (s : State) (undone : FrameBits) : State :=
  State.beginMount (State.heldInReset s undone { powered := true, resetnLow := false })

/-- RESETN asserted (R192). Without a valid supply, or while RESETN is already low, nothing changes. -/
def State.resetnAssertion (s : State) (undone : FrameBits) : State :=
  if State.portOpen s then State.heldInReset s undone { powered := true, resetnLow := true } else s

/-- RESETN released: a mount begins and the port takes transactions again (R193). -/
def State.resetnRelease (s : State) : State :=
  if s.pins.powered && s.pins.resetnLow then
    State.beginMount { s with pins := { powered := true, resetnLow := false } }
  else s

/-- The supply ceases to be valid: array work is cut and the part is stopped until power-on, its volatile state lost (R120,
log entry 10). -/
def State.powerLoss (s : State) (undone : FrameBits) : State :=
  if s.pins.powered then State.heldInReset s undone { powered := false, resetnLow := s.pins.resetnLow } else s

/-- A background operation: an ERASE or a bad-frame mark strike of background reclaim. -/
def Op.isBackground : Op → Bool
  | .read _ => false
  | .strike _ claimant _ => claimant = .background
  | .erase claimant _ _ => claimant = .background

/-- Background work is abandoned (R121): a progressing background operation stops where it stands, a suspended erase is
forgotten. -/
def State.abandon (s : State) (undone : FrameBits) : State :=
  match s.ctrl.op with
  | none => { s with ctrl := { s.ctrl with suspended := none } }
  | some op =>
    if Op.isBackground op then
      { s with array := Op.cut s.array undone op, ctrl := { s.ctrl with op := none, suspended := none } }
    else { s with ctrl := { s.ctrl with suspended := none } }

/-- A foreground claim that waited on abandoned work begins at once (R121). -/
def State.serveIfFree (s : State) : State :=
  match s.ctrl.op with
  | none => State.serveWaiting s
  | some _ => s

/-- RESTART is taken (R178): waiting commands leave with no record, background work is abandoned, the command in progress runs
on; with none in progress the volatile state is cleared at once (R179). -/
def State.takeRestart (s : State) (undone : FrameBits) : State :=
  let t : State := { s with intake := { s.intake with waiting := [], restartPending := true } }
  match s.engine.job with
  | none => State.clearForRestart (State.abandon t undone)
  | some _ => State.serveIfFree (State.abandon t undone)

/-- POWER_ON. -/
def execPowerOn (cut : FrameBits) (s : State) : Host.Outcome State Fault Refusal := .next (State.powerOn s cut)

/-- RESETN_ASSERTION. -/
def execResetnAssertion (cut : FrameBits) (s : State) : Host.Outcome State Fault Refusal :=
  .next (State.resetnAssertion s cut)

/-- RESETN_RELEASE. -/
def execResetnRelease (s : State) : Host.Outcome State Fault Refusal := .next (State.resetnRelease s)

/-- POWER_LOSS. -/
def execPowerLoss (cut : FrameBits) (s : State) : Host.Outcome State Fault Refusal := .next (State.powerLoss s cut)

end Sys2Proof.Machine
end

