-- ==== Sys2Proof/Machine/Link.lean ====
section
/-! DEFINITION. The link port and the immediate commands (R167, R173 to R175, R178, R180 to R191). What the host does outside
an open transaction, or after the transaction's command is complete, has no effect: the port ignores it (R181). -/

namespace Sys2Proof.Machine

/-! ### Transactions -/

/-- The transaction in progress replaced. -/
def State.setTransaction (s : State) (t : Option Transaction) : State :=
  { s with link := { s.link with transaction := t } }

/-- Chip select falls: a transaction begins and the port status byte is captured (R181, R182). -/
def State.chipSelectFall (s : State) : State :=
  if State.portOpen s then
    match s.link.transaction with
    | none => State.setTransaction s (some { captured := State.portStatus s, phase := .decoding })
    | some _ => s
  else s

/-- Chip select rises and ends the transaction (R181, R189, R190). -/
def State.transactionEnd (s : State) : State := State.setTransaction s none

/-- The immediate command of a code is taken, in a transaction whose command is not yet complete (R189): `act` is given the
captured port status byte and answers the new state and the answer bytes, which follow those of the time in which the
argument bytes were clocked in. -/
def State.immediate (s : State) (code : Byte) (act : Byte → State × List Byte) : State :=
  match s.link.transaction with
  | some ⟨captured, .decoding⟩ =>
    State.setTransaction (act captured).1
      (some
        { captured := captured
          phase :=
            .answering
              (commandTimeBytes code s.freeUses ((immediateArguments code).getD 0) ++ (act captured).2) })
  | _ => s

/-! ### Submissions -/

/-- The bytes of a submission that its link CRC covers: code, tag, L, arguments (R184). -/
def submissionBytes (code tag : Byte) (args : List Byte) : List Byte :=
  code :: tag :: BitVec.ofNat 8 args.length :: args

/-- The part state admits a submission (R143, R167): READY any command, UNFORMATTED or FAULTED a FORMAT. -/
def State.admits (s : State) (code : Byte) : Bool :=
  match s.part with
  | .ready => true
  | .unformatted => code = 0x4A
  | .faulted => code = 0x4A
  | .mounting => false
  | .formatting => false

/-- The acceptance code of a complete frame: the checks of R186 and R167 in order. -/
def State.decide (s : State) (code tag : Byte) (args : List Byte) (crc : Word) : Code :=
  if crc ≠ linkCrc (submissionBytes code tag args) then .frameError
  else
    match requiredLength code args with
    | none => .unknownCommand
    | some required =>
      if required ≠ some args.length then .lengthError
      else if s.intake.restartPending || !State.admits s code then .notReady
      else if tag = 0 then .tagZero
      else if (State.tagsInUse s).contains tag then .tagInUse
      else if 8 ≤ State.slotsInUse s then .queueFull
      else .accepted

/-- An accepted submission takes a slot and joins the tail of the intake queue (R167). -/
def State.accept (s : State) (cmd : Command) : State :=
  { s with intake := { s.intake with waiting := s.intake.waiting ++ [cmd] } }

/-- A submission's frame is complete: TRUNCATED is cleared, the decision is made and written as the last-submission outcome,
and the acceptance code is shifted out as byte 7 + L (R184 to R187). -/
def State.submission (s : State) (code tag : Byte) (args : List Byte) (crc : Word) : State :=
  match s.link.transaction with
  | some ⟨captured, .decoding⟩ =>
    if submissionCode code && args.length ≤ 255 then
      let decision := State.decide s code tag args crc
      let t := if decision = .accepted then State.accept s { tag := tag, code := code, args := args } else s
      { t with
          link :=
            { t.link with
                transaction :=
                  some
                    { captured := captured
                      phase :=
                        .answering (commandTimeBytes code s.freeUses (6 + args.length) ++ [Code.byte decision]) }
                last := { outcome := Code.byte decision, tag := tag, code := code }
                truncated := false } }
    else s
  | _ => s

/-- A submission is truncated: discarded, TRUNCATED set, the transaction ended (R185). -/
def State.submissionTruncated (s : State) (bytes : List Byte) : State :=
  match s.link.transaction with
  | some ⟨_, .decoding⟩ =>
    if incompleteSubmission bytes then { s with link := { s.link with transaction := none, truncated := true } } else s
  | _ => s

/-! ### Immediate commands -/

/-- STATUS (R183): the last-submission outcome; MOUNTED is cleared when the captured byte showed it set. -/
def State.status (s : State) (captured : Byte) : State × List Byte :=
  ({ s with link := { s.link with mounted := s.link.mounted && !captured.getLsbD 6 } },
    [s.link.last.outcome, s.link.last.tag, s.link.last.code])

/-- COLLECT (R173, R178, R190): NOT_READY, NONE, or DONE and the head record, whose shifting out begins. -/
def State.collect (s : State) : State :=
  match s.link.transaction with
  | some ⟨captured, .decoding⟩ =>
    if s.intake.restartPending then
      State.setTransaction s (some { captured := captured, phase := .answering [Code.byte .notReady] })
    else
      match s.intake.results with
      | [] => State.setTransaction s (some { captured := captured, phase := .answering [Code.byte .noneWaiting] })
      | r :: _ =>
        State.setTransaction s
          (some { captured := captured, phase := .collecting (Code.byte .done :: Record.bytes r) })
  | _ => s

/-- The last CRC byte of a collected record has been shifted out: the record leaves, its slot is FREE and its tag no longer
in use (R173, R174, R190). -/
def State.recordShiftedOut (s : State) : State :=
  match s.link.transaction with
  | some ⟨captured, .collecting out⟩ =>
    State.setTransaction { s with intake := { s.intake with results := s.intake.results.tail } }
      (some { captured := captured, phase := .answering out })
  | _ => s

/-- INFO (R180): the snapshot; FAULT_EVENT is cleared. -/
def State.info (s : State) : State × List Byte :=
  ({ s with link := { s.link with faultEvent := false }, freeUses := s.freeUses + 1 }, State.infoBytes s)

/-- The outcome of SET EPOCH (R43). -/
def State.epochOutcome (s : State) (value : Word) : Code :=
  match s.part with
  | .unformatted => .notReady
  | .faulted => .notReady
  | .formatting => .notReady
  | .ready => epochCheck s.engine.epoch
  | .mounting => epochCheck s.engine.epoch
where
  /-- A value below the epoch is refused (R43, R44). -/
  epochCheck : Option Word → Code
    | none => .done
    | some e => if value.toNat < e.toNat then .epochBackward else .done

/-- SET EPOCH (R43): the answer carries the outcome and the epoch as held after the command. -/
def State.setEpoch (s : State) (value : Word) : State × List Byte :=
  let outcome := State.epochOutcome s value
  let epoch := if outcome = .done then some value else s.engine.epoch
  ({ s with engine := { s.engine with epoch := epoch }, freeUses := s.freeUses + 1 },
    Code.byte outcome :: epochBytes epoch s.freeUses)

/-- HOLD CLASS and RELEASE CLASS (R102, R103): in READY, and for a class 0 to 15, the hold becomes `hold`; the answer carries
the class and the hold before and after. The hold bytes of a class above 15 are free (log entry 9). -/
def State.changeHold (s : State) (cls : Byte) (hold : Bool) : State × List Byte :=
  match classOf cls with
  | none =>
    ({ s with freeUses := s.freeUses + 1 },
      [Code.byte (if s.part = .ready then .badArgument else .notReady), cls, Config.holdBeforeOfNoClass s.freeUses,
        Config.holdAfterOfNoClass s.freeUses])
  | some k =>
    if s.part = .ready then
      ({ s with engine := { s.engine with holds := setClass s.engine.holds k hold }, freeUses := s.freeUses + 1 },
        [Code.byte .done, cls, boolByte s.engine.holds[k], boolByte hold])
    else
      ({ s with freeUses := s.freeUses + 1 },
        [Code.byte .notReady, cls, boolByte s.engine.holds[k], boolByte s.engine.holds[k]])

/-- A CANCELLED record (R171). -/
def cancelledRecord (cmd : Command) : Record := { cmd := cmd, result := plainResult .cancelled .nothing }

/-- The outcome of CANCEL (R175). -/
def State.cancelOutcome (s : State) (tag : Byte) : Code :=
  if s.intake.restartPending then .notReady
  else if tag = 0 then .badArgument
  else if s.intake.waiting.any (fun c => c.tag = tag) then .done
  else if (State.tagsInUse s).contains tag then .tooLate
  else .notFound

/-- CANCEL (R175): a WAITING command leaves the intake queue with a CANCELLED record at the tail of the result queue. -/
def State.cancel (s : State) (tag : Byte) : State × List Byte :=
  let outcome := State.cancelOutcome s tag
  let t : State := { s with freeUses := s.freeUses + 1 }
  (if outcome = .done then
      { t with
          intake :=
            { s.intake with
                waiting := s.intake.waiting.filter fun c => c.tag ≠ tag
                results := s.intake.results ++ (s.intake.waiting.filter fun c => c.tag = tag).map cancelledRecord } }
    else t,
    [Code.byte outcome, tag, State.slotStateByte s tag])

/-- RESTART (R143, R178): refused NOT_READY while MOUNTING or while a RESTART is pending. -/
def State.restart (s : State) (undone : FrameBits) : State × List Byte :=
  if s.intake.restartPending || s.part = .mounting then (s, [Code.byte .notReady])
  else (State.takeRestart s undone, [Code.byte .done])

/-! ### The meanings -/

/-- CHIP_SELECT_FALL. -/
def execChipSelectFall (s : State) : Host.Outcome State Fault Refusal := .next (State.chipSelectFall s)

/-- SUBMISSION. -/
def execSubmission (code tag : Byte) (args : List Byte) (crc : Word) (s : State) : Host.Outcome State Fault Refusal :=
  .next (State.submission s code tag args crc)

/-- SUBMISSION_TRUNCATED. -/
def execSubmissionTruncated (bytes : List Byte) (s : State) : Host.Outcome State Fault Refusal :=
  .next (State.submissionTruncated s bytes)

/-- STATUS. -/
def execStatus (s : State) : Host.Outcome State Fault Refusal :=
  .next (State.immediate s 0x01 fun captured => State.status s captured)

/-- COLLECT. -/
def execCollect (s : State) : Host.Outcome State Fault Refusal := .next (State.collect s)

/-- RECORD_SHIFTED_OUT. -/
def execRecordShiftedOut (s : State) : Host.Outcome State Fault Refusal := .next (State.recordShiftedOut s)

/-- INFO. -/
def execInfo (s : State) : Host.Outcome State Fault Refusal := .next (State.immediate s 0x03 fun _ => State.info s)

/-- SET EPOCH. -/
def execSetEpoch (value : Word) (s : State) : Host.Outcome State Fault Refusal :=
  .next (State.immediate s 0x04 fun _ => State.setEpoch s value)

/-- HOLD CLASS. -/
def execHoldClass (cls : Byte) (s : State) : Host.Outcome State Fault Refusal :=
  .next (State.immediate s 0x05 fun _ => State.changeHold s cls true)

/-- RELEASE CLASS. -/
def execReleaseClass (cls : Byte) (s : State) : Host.Outcome State Fault Refusal :=
  .next (State.immediate s 0x06 fun _ => State.changeHold s cls false)

/-- CANCEL. -/
def execCancel (tag : Byte) (s : State) : Host.Outcome State Fault Refusal :=
  .next (State.immediate s 0x07 fun _ => State.cancel s tag)

/-- RESTART. -/
def execRestart (cut : FrameBits) (s : State) : Host.Outcome State Fault Refusal :=
  .next (State.immediate s 0x08 fun _ => State.restart s cut)

/-- A code that is neither an immediate command code nor in the submission range: UNKNOWN_COMMAND, no state changed (R189). -/
def execUnknownImmediateCommand (code : Byte) (s : State) : Host.Outcome State Fault Refusal :=
  .next
    (if submissionCode code || immediateCode code then s
      else State.immediate s code fun _ => (s, [Code.byte .unknownCommand]))

/-- TRANSACTION_END. -/
def execTransactionEnd (s : State) : Host.Outcome State Fault Refusal := .next (State.transactionEnd s)

end Sys2Proof.Machine
end

