-- ==== Sys2Proof/Machine/Submitted.lean ====
section
/-! DEFINITION. The dispatches of the submitted commands (R170): what each does at the moment it passes from the intake queue
to the grant engine. A dispatch whose conditions do not hold is not made. -/

namespace Sys2Proof.Machine

/-- The conditions of a dispatch of the command `code` (R170): no command in progress, no RESTART pending, the head of the
intake queue that command, and a part state that admits it. -/
def State.dispatchHead (s : State) (code : Byte) : Option Command :=
  match s.engine.job, s.intake.waiting with
  | none, cmd :: _ =>
    if cmd.code = code && !s.intake.restartPending && State.admits s code then some cmd else none
  | _, _ => none

/-- A dispatch: the head command leaves the intake queue and `run` carries out its first step (R169, R170). -/
def State.dispatch (s : State) (code : Byte) (run : State → Command → State) : State :=
  match State.dispatchHead s code with
  | none => s
  | some cmd => run { s with intake := { s.intake with waiting := s.intake.waiting.tail } } cmd

/-- A READ of an entry's frame claimed. -/
def State.readEntry (s : State) (cmd : Command) (e : Entry) (step : EngineStep) : State :=
  State.claimStep s cmd step (.read e.frame)

/-- ISSUE at dispatch: arguments, status, window requirement, key, then the take (R69, R70, R71). -/
def State.runIssue (s : State) (cmd : Command) : State :=
  let refuse (outcome : Code) : State := State.post s cmd (plainResult outcome (.issue cmd.key none none none 0))
  match issueRecord cmd.args with
  | none => refuse .badArgument
  | some r =>
    match s.policies[r.cls] with
    | .unconfigured => refuse .noPolicy
    | .faulted => refuse .policyFault
    | .set p =>
      if p.windowRequired && r.window.isNone then refuse .notPermitted
      else
        match findEntry s.index r.key with
        | some e => State.post s cmd (plainResult .keyExists (.issue cmd.key none (some e.gen) none 0))
        | none => State.take s cmd { record := r, failed := 0, old := none }

/-- LOOKUP at dispatch (R36). -/
def State.runLookup (s : State) (cmd : Command) : State :=
  match findEntry s.index cmd.key with
  | none => State.post s cmd (plainResult .notFound (.lookup cmd.key none none))
  | some e =>
    match e.cls with
    | none => State.post s cmd (plainResult .corrupt (.lookup e.key (some e.gen) none))
    | some _ => State.readEntry s cmd e (.lookupRead (State.snapshot s) e)

/-- DRAW at dispatch (R45, R46). -/
def State.runDraw (s : State) (cmd : Command) : State :=
  match drawArgs cmd.args with
  | none => State.post s cmd (plainResult .badArgument (.draw cmd.key none 0 none))
  | some _ =>
    match findEntry s.index cmd.key with
    | none => State.post s cmd (plainResult .notFound (.draw cmd.key none 0 none))
    | some e =>
      match e.cls with
      | none => State.post s cmd (plainResult .corrupt (.draw e.key (some e.gen) 0 none))
      | some _ => State.readEntry s cmd e (.drawRead (State.snapshot s) e)

/-- A relocation's result with no more than the key and a generation (R80). -/
def relocationBare (outcome : Code) (key : Word) (gen : Option Gen) : Result :=
  plainResult outcome (.relocation key none gen none none none 0)

/-- TOPUP at dispatch (R74). -/
def State.runTopup (s : State) (cmd : Command) : State :=
  match topupArgs cmd.args with
  | none => State.post s cmd (relocationBare .badArgument cmd.key none)
  | some _ =>
    match findEntry s.index cmd.key with
    | none => State.post s cmd (relocationBare .notFound cmd.key none)
    | some e =>
      match e.cls with
      | none => State.post s cmd (relocationBare .corrupt e.key (some e.gen))
      | some _ => State.readEntry s cmd e (.topupRead (State.snapshot s) e)

/-- MOVE at dispatch (R77). -/
def State.runMove (s : State) (cmd : Command) : State :=
  match findEntry s.index cmd.key with
  | none => State.post s cmd (relocationBare .notFound cmd.key none)
  | some e =>
    match e.cls with
    | none => State.post s cmd (relocationBare .corrupt e.key (some e.gen))
    | some _ => State.readEntry s cmd e (.moveRead e)

/-- REVOKE at dispatch: an entry, live or corrupt, has its frame read (R83). -/
def State.runRevoke (s : State) (cmd : Command) : State :=
  match findEntry s.index cmd.key with
  | none => State.post s cmd (plainResult .notFound (.revoke cmd.key none none))
  | some e => State.readEntry s cmd e (.revokeRead (State.snapshot s) e)

/-- The entries whose keys are strictly greater than the start key, in the index's ascending order (R39). -/
def selectedEntries (index : List Entry) (start : Word) : List Entry :=
  index.filter fun e => start.toNat < e.key.toNat

/-- LIST at dispatch: the first 16 selected entries, MORE when there are more (R39, R40). -/
def State.runList (s : State) (cmd : Command) : State :=
  let selected := selectedEntries s.index cmd.key
  State.post s cmd
    { outcome := .done
      flags := { more := 16 < selected.length }
      payload := .list (selected.take 16) }

/-- CONFIGURE CLASS at dispatch (R96, R97, R99). -/
def State.runConfigureClass (s : State) (cmd : Command) : State :=
  let given : Byte := argByte cmd.args 0
  match configureArgs cmd.args with
  | none =>
    State.post s cmd
      (plainResult .badArgument (.configure (if given.toNat < 16 then some given else none) none))
  | some (k, p) =>
    match s.policies[k] with
    | .unconfigured => State.claimStep s cmd (.configureStrike k p) (.strike 1 (policyStrike k p))
    | .set q => State.post s cmd (plainResult .alreadySet (.configure (some given) (some (.set q))))
    | .faulted => State.post s cmd (plainResult .alreadySet (.configure (some given) (some .faulted)))

/-- PURGE ORPHANS at dispatch: the members of the quarantine set in ascending frame number (R139). -/
def State.runPurgeOrphans (s : State) (cmd : Command) : State := State.purgeNext s cmd s.pools.quarantine 0 0

/-- The changes of FORMAT's dispatch, all at one moment (R159): waiting commands cancelled, FORMATTING, the tables emptied, the
holds cleared, the label absent, background work abandoned. -/
def State.enterFormatting (s : State) (undone : FrameBits) : State :=
  let t := State.abandon s undone
  { t with
      part := .formatting
      intake := { t.intake with waiting := [], results := t.intake.results ++ t.intake.waiting.map cancelledRecord }
      index := []
      policies := perClass fun _ => .unconfigured
      engine := { t.engine with holds := perClass fun _ => false }
      pools := { t.pools with free := [], reclaim := [], quarantine := [] }
      mount := { t.mount with label := none } }

/-- FORMAT at dispatch (R159), and its first array operation (R160): the READ of frame 2 when the part was UNFORMATTED or
FAULTED, else the ERASE of frame 0. -/
def State.runFormat (undone : FrameBits) (s : State) (cmd : Command) : State :=
  let f : Formatting := { label := argWord cmd.args 0, erased := 0, newlyBad := 0, systemFailures := 0 }
  let t := State.enterFormatting s undone
  if s.part = .ready then State.claimStep t cmd (.formatErase f) (.erase 0)
  else State.claimStep t cmd (.formatMapRead f) (.read 2)

/-! ### The meanings -/

/-- ISSUE. -/
def execIssue (s : State) : Host.Outcome State Fault Refusal := .next (State.dispatch s 0x41 State.runIssue)

/-- LOOKUP. -/
def execLookup (s : State) : Host.Outcome State Fault Refusal := .next (State.dispatch s 0x42 State.runLookup)

/-- DRAW. -/
def execDraw (s : State) : Host.Outcome State Fault Refusal := .next (State.dispatch s 0x43 State.runDraw)

/-- TOPUP. -/
def execTopup (s : State) : Host.Outcome State Fault Refusal := .next (State.dispatch s 0x44 State.runTopup)

/-- MOVE. -/
def execMove (s : State) : Host.Outcome State Fault Refusal := .next (State.dispatch s 0x45 State.runMove)

/-- REVOKE. -/
def execRevoke (s : State) : Host.Outcome State Fault Refusal := .next (State.dispatch s 0x46 State.runRevoke)

/-- LIST. -/
def execList (s : State) : Host.Outcome State Fault Refusal := .next (State.dispatch s 0x47 State.runList)

/-- CONFIGURE CLASS. -/
def execConfigureClass (s : State) : Host.Outcome State Fault Refusal :=
  .next (State.dispatch s 0x48 State.runConfigureClass)

/-- PURGE ORPHANS. -/
def execPurgeOrphans (s : State) : Host.Outcome State Fault Refusal :=
  .next (State.dispatch s 0x49 State.runPurgeOrphans)

/-- FORMAT. -/
def execFormat (cut : FrameBits) (s : State) : Host.Outcome State Fault Refusal :=
  .next (State.dispatch s 0x4A (State.runFormat cut))

end Sys2Proof.Machine
end

