-- ==== Sys2Proof/Machine/Dispatch.lean ====
section
/-! DEFINITION. exec: one arm for each command and event, one direct call of its meaning. -/

namespace Sys2Proof.Machine

/-- The effect of a command or event on everything but the queue. -/
def exec (i : Instr) (s : State) : Host.Outcome State Fault Refusal :=
  match i with
  | .powerOn cut => Sys2Proof.Machine.execPowerOn cut s
  | .resetnAssertion cut => Sys2Proof.Machine.execResetnAssertion cut s
  | .resetnRelease => Sys2Proof.Machine.execResetnRelease s
  | .chipSelectFall => Sys2Proof.Machine.execChipSelectFall s
  | .submission code tag args crc => Sys2Proof.Machine.execSubmission code tag args crc s
  | .submissionTruncated bytes => Sys2Proof.Machine.execSubmissionTruncated bytes s
  | .status => Sys2Proof.Machine.execStatus s
  | .collect => Sys2Proof.Machine.execCollect s
  | .recordShiftedOut => Sys2Proof.Machine.execRecordShiftedOut s
  | .info => Sys2Proof.Machine.execInfo s
  | .setEpoch value => Sys2Proof.Machine.execSetEpoch value s
  | .holdClass cls => Sys2Proof.Machine.execHoldClass cls s
  | .releaseClass cls => Sys2Proof.Machine.execReleaseClass cls s
  | .cancel tag => Sys2Proof.Machine.execCancel tag s
  | .restart cut => Sys2Proof.Machine.execRestart cut s
  | .unknownImmediateCommand code => Sys2Proof.Machine.execUnknownImmediateCommand code s
  | .issue => Sys2Proof.Machine.execIssue s
  | .lookup => Sys2Proof.Machine.execLookup s
  | .draw => Sys2Proof.Machine.execDraw s
  | .topup => Sys2Proof.Machine.execTopup s
  | .move => Sys2Proof.Machine.execMove s
  | .revoke => Sys2Proof.Machine.execRevoke s
  | .list => Sys2Proof.Machine.execList s
  | .configureClass => Sys2Proof.Machine.execConfigureClass s
  | .purgeOrphans => Sys2Proof.Machine.execPurgeOrphans s
  | .format cut => Sys2Proof.Machine.execFormat cut s
  | .readComplete => Sys2Proof.Machine.execReadComplete s
  | .strikeComplete stuck => Sys2Proof.Machine.execStrikeComplete stuck s
  | .markerRetirement elapsed stuck => Sys2Proof.Machine.execMarkerRetirement elapsed stuck s
  | .bodyErase elapsed stuck => Sys2Proof.Machine.execBodyErase elapsed stuck s
  | .markerErase elapsed stuck => Sys2Proof.Machine.execMarkerErase elapsed stuck s
  | .systemFrameErase elapsed stuck => Sys2Proof.Machine.execSystemFrameErase elapsed stuck s
  | .blankVerify => Sys2Proof.Machine.execBlankVerify s
  | .quantum => Sys2Proof.Machine.execQuantum s
  | .suspension elapsed undone => Sys2Proof.Machine.execSuspension elapsed undone s
  | .backgroundStart => Sys2Proof.Machine.execBackgroundStart s
  | .backgroundResume => Sys2Proof.Machine.execBackgroundResume s
  | .transactionEnd => Sys2Proof.Machine.execTransactionEnd s
  | .powerLoss cut => Sys2Proof.Machine.execPowerLoss cut s

end Sys2Proof.Machine
end

