-- ==== Sys2Proof/Machine/Step.lean ====
section
/-! DEFINITION. step: the command at the front of the queue is taken; on an empty queue the part goes on by itself, which
shows in the walk of a mount alone (log entries 5 and 23). -/

namespace Sys2Proof.Machine

/-- One step: the front of the queue, run on the part with the queue's rest; with nothing waiting the part goes on by
itself. -/
def step (s : State) : Host.Outcome State Fault Refusal :=
  match s.pending with
  | [] => .next (State.tick s)
  | c :: rest => exec c { s with pending := rest }

/-- The part with the command that a table word spells at the front of its queue; no word of this table spells one. -/
def State.withFetchWord (s : State) (nbits w : Nat) : State :=
  match decodeTableWord nbits w with
  | none => s
  | some c => { s with pending := c :: s.pending }

end Sys2Proof.Machine
end

