-- ==== Sys2Proof/Safety.lean ====
section
/-! DEFINITION. What counts as a safe run of the part, in the terms the statements use: the array canonical, the slots within
their bounds, the work in progress coherent, the index in order with distinct keys, every grant frame in one place; and the
names for the situations of a dispatch and of a completion. -/

namespace Sys2Proof.Machine

/-- The frame array is in its canonical form. -/
abbrev State.arrayOk (s : State) : Prop := Memory.wf s.array = true

/-- The command slots in use never exceed 8, and no two commands holding a slot share a tag (R165). -/
abbrev State.slotsOk (s : State) : Prop := State.slotsInUse s ≤ 8 ∧ (State.tagsInUse s).Nodup

/-- The index keeps its entries in ascending order of key, and no two share a key (R25). -/
abbrev State.indexOk (s : State) : Prop := s.index.Pairwise fun d e => d.key.toNat < e.key.toNat

/-- A mount is in progress only while the part is MOUNTING (R142). -/
abbrev State.mountOk (s : State) : Prop := s.mount.work.isSome = true → s.part = .mounting

/-! ### The work in progress -/

/-- The frame of the foreground operation that progresses, or else of the foreground claim that waits (R108, R114). -/
def Controller.foregroundFrame (c : Controller) : Option Frame :=
  match c.op, c.waiting with
  | some (.read f), _ => some f
  | some (.strike f .foreground _), _ => some f
  | some (.erase .foreground e _), _ => some e.frame
  | _, some (.read f) => some f
  | _, some (.strike f _) => some f
  | _, some (.erase f) => some f
  | _, _ => none

/-- A foreground operation progresses. -/
def Controller.foregroundBusy (c : Controller) : Bool :=
  match c.op with
  | none => false
  | some op => !Op.isBackground op

/-- A background operation progresses. -/
def Controller.backgroundBusy (c : Controller) : Bool :=
  match c.op with
  | none => false
  | some op => Op.isBackground op

/-- The foreground neither works on the array nor waits for it. -/
def Controller.foregroundIdle (c : Controller) : Prop := Controller.foregroundBusy c = false ∧ c.waiting = none

/-- The frames of the mount's scan: those scanned so far, or in its walk those not reached yet. -/
def State.scannedFrames (s : State) : List Frame :=
  match s.mount.work with
  | none => []
  | some w => w.scanned.map fun q => q.1

/-- A step of FORMAT. -/
def EngineStep.formats : EngineStep → Bool
  | .formatMapRead _ => true
  | .formatErase _ => true
  | .formatMark _ _ => true
  | .formatRecord _ => true
  | .formatMount _ => true
  | _ => false

/-- The step in which FORMAT waits for the mount that follows it (R160). -/
def EngineStep.mounts : EngineStep → Bool
  | .formatMount _ => true
  | _ => false

/-- The writing of a new record that a step goes on with (R66). -/
def EngineStep.writing : EngineStep → Option Writing
  | .takeErase w => some w
  | .takeWait w => some w
  | .takeMark _ w => some w
  | .openingStrike w => some w
  | .bodyStrike w => some w
  | .liveStrike w => some w
  | .newFrameMark _ w => some w
  | .movedStrike w _ _ => some w
  | _ => none

/-- A part that takes nothing from the link (no supply, or RESETN low) has no work in progress and its volatile tables are empty
(R192, R177). -/
abbrev State.closedOk (s : State) : Prop :=
  State.portOpen s = false →
    s.link.transaction = none ∧ s.intake.waiting = [] ∧ s.engine.job = none ∧ s.engine.held = none ∧
      s.mount.work = none ∧ s.ctrl = Controller.idle ∧ s.index = [] ∧ s.pools.free = [] ∧ s.pools.reclaim = [] ∧
      s.pools.quarantine = []

/-- The work in progress is coherent: a mount only while MOUNTING (R142); a foreground claim waits only for a background operation
(R107, R114), and none is there with no command and no mount in progress or in the walk of a mount; no erase is suspended
while a background operation progresses (R116); during a mount no command is in progress but the FORMAT before it (R108), and no
FORMAT is in progress in READY (R159). -/
abbrev State.workOk (s : State) : Prop :=
  State.mountOk s ∧ State.closedOk s ∧
    (s.ctrl.waiting ≠ none → Controller.backgroundBusy s.ctrl = true) ∧
    (Controller.backgroundBusy s.ctrl = true → s.ctrl.suspended = none) ∧
    (s.engine.job = none → s.mount.work = none → Controller.foregroundIdle s.ctrl) ∧
    (∀ j ∈ s.engine.job, EngineStep.formats j.step = true → s.part ≠ .ready) ∧
    ∀ w ∈ s.mount.work,
      (∀ j ∈ s.engine.job, EngineStep.mounts j.step = true) ∧ (w.step = .walk → Controller.foregroundIdle s.ctrl)

/-! ### Keys -/

/-- No entry of the index holds the key. -/
abbrev State.newKey (s : State) (key : Word) : Prop := ∀ e ∈ s.index, e.key ≠ key

/-- An entry of the index binds the key to the frame. -/
abbrev State.boundAt (s : State) (key : Word) (f : Frame) : Prop := ∃ e ∈ s.index, e.key = key ∧ e.frame = f

/-- The resolution of the candidates left (`todo`) against the winners so far, the frame `loser` being ended: the winners have
distinct keys, each of these stands in a scanned frame of its own, and every candidate of the scan is among them (R155). -/
abbrev resolving (scanned : List (Frame × Placement)) (todo winners : List Candidate) (loser : Frame) : Prop :=
  (winners.map fun c => c.key).Nodup ∧
    (loser :: (todo ++ winners).map fun c => c.frame).Nodup ∧
    (∀ f ∈ loser :: (todo ++ winners).map fun c => c.frame, f ∈ scanned.map fun q => q.1) ∧
    ∀ q ∈ scanned, ∀ c, q.2 = .candidate c → q.1 = loser ∨ c ∈ todo ∨ c ∈ winners

/-- What mount's going on after the end of frame `f` rests on: in the scan every frame scanned so far lies below it. -/
def MountNext.restsOn (scanned : List (Frame × Placement)) (f : Frame) : MountNext → Prop
  | .scan => 3 ≤ f.val ∧ ∀ q ∈ scanned, q.1 < f
  | .resolve todo winners => resolving scanned todo winners f

/-- The candidates the walk has not reached have distinct keys, none of them in the index (R25, R155). -/
abbrev MountWork.newKeys (w : MountWork) (s : State) : Prop :=
  ((MountWork.candidates w).map fun c => c.key).Nodup ∧ ∀ c ∈ MountWork.candidates w, State.newKey s c.key

/-- What the steps of a mount rest on, `fg` being the frame of its foreground claim. -/
def MountWork.stepOk (w : MountWork) (s : State) : Prop :=
  let fg := Controller.foregroundFrame s.ctrl
  match w.step with
  | .readFormat => w.scanned = []
  | .readMap => w.scanned = []
  | .readPolicies => w.scanned = []
  | .scanRead => ∀ f ∈ fg, MountNext.restsOn w.scanned f .scan
  | .regularise found =>
    ∀ f ∈ fg, MountNext.restsOn w.scanned f .scan ∧ ∀ c, found = .candidate c → c.frame = f
  | .retire => ∀ f ∈ fg, MountNext.restsOn w.scanned f .scan
  | .movedStrike next => ∀ f ∈ fg, MountNext.restsOn w.scanned f next
  | .fallbackErase next => ∀ f ∈ fg, MountNext.restsOn w.scanned f next
  | .fallbackMark f next => MountNext.restsOn w.scanned f next
  | .walk => MountWork.newKeys w s

/-- The keys are in order: the index ascending with distinct keys (R25); the key of an ISSUE in progress not yet in it; the index
empty under FORMAT and under a mount before its walk (R26, R146); the scan ascending, its candidates in their own frames. -/
abbrev State.keysOk (s : State) : Prop :=
  State.indexOk s ∧
    (∀ j ∈ s.engine.job,
      (∀ w ∈ EngineStep.writing j.step, w.old = none → State.newKey s w.record.key) ∧
        (EngineStep.formats j.step = true → s.mount.work = none → s.index = [])) ∧
    ∀ w ∈ s.mount.work,
      (w.step ≠ .walk → s.index = []) ∧ (w.scanned.map fun q => q.1).Pairwise (· < ·) ∧
        (∀ q ∈ w.scanned, ∀ c, q.2 = .candidate c → c.frame = q.1) ∧ MountWork.stepOk w s

/-! ### Places of the grant frames (R123) -/

/-- The places of R123, and the bad-frame map, and the frames a mount has scanned and not yet placed. -/
def State.places (s : State) : List Frame :=
  s.pools.free ++ s.pools.reclaim ++ s.pools.quarantine ++ s.pools.bad ++ s.index.map (fun e => e.frame) ++
    s.engine.held.toList ++ State.scannedFrames s

/-- A step in which the command in progress holds a frame (R64). -/
def EngineStep.holds : EngineStep → Bool
  | .openingStrike _ => true
  | .bodyStrike _ => true
  | .liveStrike _ => true
  | .newFrameMark _ _ => true
  | .movedStrike _ _ _ => true
  | .fallbackErase _ _ => true
  | .fallbackMark _ _ _ => true
  | _ => false

/-- A relocation's old frame is the one its key is bound to (R30). -/
abbrev Writing.oldBound (w : Writing) (s : State) : Prop :=
  ∀ o ∈ w.old, State.boundAt s w.record.key o.frame

/-- What the steps of the command in progress rest on, `fg` being the frame of its foreground claim. -/
def EngineStep.framesOk (s : State) (step : EngineStep) : Prop :=
  let fg := Controller.foregroundFrame s.ctrl
  let demand := s.ctrl.suspended = none ∧ Controller.backgroundBusy s.ctrl = false
  match step with
  | .lookupRead _ e => ∀ f ∈ fg, State.boundAt s e.key f
  | .drawRead _ e => ∀ f ∈ fg, State.boundAt s e.key f
  | .drawStrikeA _ e => ∀ f ∈ fg, State.boundAt s e.key f
  | .drawStrikeB _ e _ => ∀ f ∈ fg, State.boundAt s e.key f
  | .drawReadBack _ e => ∀ f ∈ fg, State.boundAt s e.key f
  | .topupRead _ e => ∀ f ∈ fg, State.boundAt s e.key f
  | .moveRead e => ∀ f ∈ fg, State.boundAt s e.key f
  | .revokeRead _ e => ∀ f ∈ fg, State.boundAt s e.key f
  | .takeErase w => Writing.oldBound w s ∧ demand ∧ ∀ f ∈ fg, f ∈ s.pools.reclaim
  | .takeWait w => Writing.oldBound w s
  | .takeMark f w => Writing.oldBound w s ∧ demand ∧ f ∈ s.pools.reclaim
  | .openingStrike w => Writing.oldBound w s ∧ ∀ f ∈ fg, s.engine.held = some f
  | .bodyStrike w => Writing.oldBound w s ∧ ∀ f ∈ fg, s.engine.held = some f
  | .liveStrike w => Writing.oldBound w s ∧ ∀ f ∈ fg, s.engine.held = some f
  | .newFrameMark f w => Writing.oldBound w s ∧ s.engine.held = some f
  | .movedStrike w o new => State.boundAt s w.record.key o.frame ∧ s.engine.held = some new
  | .retiredStrike e => ∀ f ∈ fg, State.boundAt s e.key f
  | .fallbackErase _ _ => ∀ f ∈ fg, s.engine.held = some f
  | .fallbackMark f _ _ => s.engine.held = some f
  | .configureStrike _ _ => True
  | .configureRead _ => True
  | .purgeStrike rest _ _ => ∀ f ∈ fg, (f :: rest).Nodup ∧ ∀ g ∈ f :: rest, g ∈ s.pools.quarantine
  | .formatMapRead _ => True
  | .formatErase _ => ∀ f ∈ fg, 3 ≤ f.val → f ∉ s.pools.bad
  | .formatMark f _ => 3 ≤ f.val ∧ f ∉ s.pools.bad
  | .formatRecord _ => True
  | .formatMount _ => True

/-- Mount's frame `f`, which it scans or ends, is not bad, and every grant frame below it has been scanned or is bad. -/
abbrev State.scanReached (s : State) (f : Frame) : Prop :=
  f ∉ s.pools.bad ∧ ∀ g : Frame, 3 ≤ g.val → g < f → g ∈ State.places s

/-- Every grant frame has a place. -/
abbrev State.allPlaced (s : State) : Prop := ∀ g : Frame, 3 ≤ g.val → g ∈ State.places s

/-- How far the scan has come. -/
def MountWork.framesOk (w : MountWork) (s : State) : Prop :=
  let fg := Controller.foregroundFrame s.ctrl
  match w.step with
  | .readFormat => True
  | .readMap => True
  | .readPolicies => True
  | .scanRead => ∀ f ∈ fg, State.scanReached s f
  | .regularise _ => ∀ f ∈ fg, State.scanReached s f
  | .retire => ∀ f ∈ fg, State.scanReached s f
  | .movedStrike .scan => ∀ f ∈ fg, State.scanReached s f
  | .fallbackErase .scan => ∀ f ∈ fg, State.scanReached s f
  | .fallbackMark f .scan => State.scanReached s f
  | .movedStrike (.resolve _ _) => State.allPlaced s
  | .fallbackErase (.resolve _ _) => State.allPlaced s
  | .fallbackMark _ (.resolve _ _) => State.allPlaced s
  | .walk => State.allPlaced s

/-- Every grant frame has at most one place, and while the part is READY exactly one (R123); with the places that the work in
progress rests on: the pools and the queue are empty under FORMAT and under a mount before its walk, the command holds a
frame in the steps that write or end one and in no other, and a background erase is of a frame in the reclaim queue (R128). -/
abbrev State.placesOk (s : State) : Prop :=
  (State.places s).Nodup ∧ (∀ f ∈ State.places s, 3 ≤ f.val) ∧ (s.part = .ready → State.allPlaced s) ∧
    (∀ f ∈ s.engine.held, ∃ j ∈ s.engine.job, EngineStep.holds j.step = true) ∧
    (∀ claimant e since, s.ctrl.op = some (.erase claimant e since) → claimant = .background →
      e.frame ∈ s.pools.reclaim) ∧
    (∀ e ∈ s.ctrl.suspended, e.frame ∈ s.pools.reclaim) ∧
    (∀ j ∈ s.engine.job,
      EngineStep.framesOk s j.step ∧
        (EngineStep.formats j.step = true → s.mount.work = none →
          s.pools.free = [] ∧ s.pools.reclaim = [] ∧ s.pools.quarantine = [])) ∧
    ∀ w ∈ s.mount.work,
      (w.step ≠ .walk → s.pools.free = [] ∧ s.pools.reclaim = [] ∧ s.pools.quarantine = []) ∧ MountWork.framesOk w s

/-- A safe state: what every step keeps. -/
abbrev State.Safe (s : State) : Prop :=
  State.arrayOk s ∧ State.slotsOk s ∧ State.workOk s ∧ State.keysOk s ∧ State.placesOk s

/-- How far a phase has advanced (R20). -/
def Phase.rank : Phase → Nat
  | .blank => 0
  | .opening => 1
  | .live => 2
  | .moved => 3
  | .retired => 4

/-- An ERASE of the frame is progressing. -/
def State.erasing (s : State) (f : Frame) : Prop :=
  ∃ claimant e since, s.ctrl.op = some (.erase claimant e since) ∧ e.frame = f

/-- A background ERASE is progressing. -/
def State.backgroundErasing (s : State) : Prop := ∃ e since, s.ctrl.op = some (.erase .background e since)

/-- The command `cmd` of code `code` is at the head of the intake queue with `rest` behind it, and a dispatch of it is due
(R170). -/
abbrev State.dispatchDue (s : State) (code : Byte) (cmd : Command) (rest : List Command) : Prop :=
  s.engine.job = none ∧ s.intake.restartPending = false ∧ s.intake.waiting = cmd :: rest ∧ cmd.code = code ∧
    s.part = .ready

/-- The part right after the head of its intake queue left it. -/
def State.headLeft (s : State) (rest : List Command) : State :=
  { s with intake := { s.intake with waiting := rest } }

/-- The head command left the intake queue and its record joined the tail of the result queue, nothing else changed: a
command that ends at its dispatch (R169, R172). -/
def State.endedAtDispatch (s : State) (cmd : Command) (rest : List Command) (r : Result) : State :=
  { s with intake := { s.intake with waiting := rest, results := s.intake.results ++ [{ cmd := cmd, result := r }] } }

/-- The head command left the intake queue and is in progress at a step, its claim's operation progressing. -/
def State.startedAtDispatch (s : State) (cmd : Command) (rest : List Command) (step : EngineStep) (op : Op) : State :=
  { s with
      intake := { s.intake with waiting := rest }
      engine := { s.engine with job := some { cmd := cmd, step := step } }
      ctrl := { s.ctrl with op := some op, waiting := none } }

/-- The head command left the intake queue and is in progress at a step, its claim waiting behind the background operation that
progresses (R114). -/
def State.waitsAtDispatch (s : State) (cmd : Command) (rest : List Command) (step : EngineStep) (k : Claim) : State :=
  { s with
      intake := { s.intake with waiting := rest }
      engine := { s.engine with job := some { cmd := cmd, step := step } }
      ctrl := { s.ctrl with waiting := some k } }

/-- The dispatch `c` taken in `s` claims `k`, an operation `op`, `t` being the part with what the dispatch changes besides: with
nothing progressing the operation begins at once; a background ERASE or mark strike runs on and the claim waits (R114). -/
def State.dispatchClaims (c : Instr) (s t : State) (cmd : Command) (rest : List Command) (step : EngineStep) (k : Claim)
    (op : Op) : Prop :=
  (s.ctrl.op = none → exec c s = .next (State.startedAtDispatch t cmd rest step op)) ∧
    ∀ background : Op,
      s.ctrl.op = some background → Op.isBackground background = true →
        exec c s = .next (State.waitsAtDispatch t cmd rest step k)

/-- The command in progress completed: the record joined the tail of the result queue (R172). -/
def State.posted (s : State) (cmd : Command) (r : Result) : State :=
  { s with
      engine := { s.engine with job := none }
      intake := { s.intake with results := s.intake.results ++ [{ cmd := cmd, result := r }] } }

/-- The command in progress went on to a step whose claim's operation progresses. -/
def State.wentOn (s : State) (cmd : Command) (step : EngineStep) (op : Op) : State :=
  { s with
      engine := { s.engine with job := some { cmd := cmd, step := step } }
      ctrl := { s.ctrl with op := some op, waiting := none } }

/-- With `c` taken in `s` an attempt of the claimant's ERASE `e` fails, at the verify of its stage 1 or at its blank verify,
`t` being the part with what the stage left on the array (R112, R113). -/
def State.attemptFails (s : State) (claimant : Claimant) (e : Erase) (c : Instr) (t : State) : Prop :=
  (∃ since : Nat, s.ctrl.op = some (.erase claimant e since)) ∧
    ((e.stage = .blankVerify ∧ c = .blankVerify ∧ t = s ∧ Image.blank (Memory.image s.array e.frame) = false) ∨
      (e.stage = .markerRetirement ∧
        ∃ (elapsed : Nat) (stuck : FrameBits),
          c = .markerRetirement elapsed stuck ∧ t = { s with array := Memory.retireMarker s.array e.frame stuck } ∧
            Memory.image t.array e.frame 0 ≠ 0))

/-- With `c` taken in `s` the command in progress makes the take of `w`, `t` being the part with what `c` changed besides, nothing
progressing in it: the free pool's head is struck OPENING; with the pool empty the suspended erase goes on in the foreground, or
the head of the reclaim queue is erased from its first attempt, or the command ends with FULL (R65, R126, R131, R132). -/
def State.takesFrame (c : Instr) (s t : State) (cmd : Command) (w : Writing) : Prop :=
  (∀ (f : Frame) (free : List Frame),
      t.pools.free = f :: free →
        exec c s =
          .next
            (State.wentOn
              { t with pools := { t.pools with free := free }, engine := { t.engine with held := some f } }
              cmd (.openingStrike w) (.strike f .foreground (.bits [(0, 0x80)])))) ∧
    (t.pools.free = [] →
      (∀ e : Erase,
          t.ctrl.suspended = some e →
            exec c s =
              .next
                { t with
                    engine := { t.engine with job := some { cmd := cmd, step := .takeErase w } }
                    ctrl := { t.ctrl with op := some (.erase .foreground e 0), suspended := none } }) ∧
        (∀ (f : Frame) (more : List Frame),
          t.ctrl.suspended = none → t.pools.reclaim = f :: more → 3 ≤ f.val →
            exec c s =
              .next
                (State.wentOn t cmd (.takeErase w)
                  (.erase .foreground
                    { frame := f, attempt := .first, stage := .markerRetirement, progress := 0 } 0))) ∧
        (t.ctrl.suspended = none → t.pools.reclaim = [] →
          exec c s =
            .next
              (State.posted t cmd
                { outcome := .full, flags := {}
                  payload :=
                    match w.old with
                    | none => .issue w.record.key none none none w.failed
                    | some o =>
                      .relocation w.record.key (some o.frame) (some o.gen) none (some o.remaining) (some o.topups)
                        w.failed })))

/-- An event of the array controller: a completion, a stage of an ERASE, a quantum, a suspension. -/
abbrev arrayEvent (c : Instr) : Prop :=
  c = .readComplete ∨ c = .blankVerify ∨ c = .quantum ∨ (∃ stuck : FrameBits, c = .strikeComplete stuck) ∨
    ∃ (elapsed : Nat) (bits : FrameBits),
      c = .markerRetirement elapsed bits ∨ c = .bodyErase elapsed bits ∨ c = .markerErase elapsed bits ∨
        c = .systemFrameErase elapsed bits ∨ c = .suspension elapsed bits

/-! ### A mount goes on -/

/-- `c` taken in `s` leaves `t` with the mount at the step of `w`, whose claim's operation progresses. -/
def State.mountWaitsFor (c : Instr) (s t : State) (w : MountWork) (op : Op) : Prop :=
  exec c s =
    .next
      { t with
          mount := { t.mount with work := some w }
          ctrl := { t.ctrl with op := some op, waiting := none } }

/-- `c` taken in `s` leaves `t` resolving the candidates `todo`, in ascending frame order, against the winners so far: when all of
their keys are distinct the walk begins (R156); else the first of them whose key has a winner makes a pair with it, the pair is
counted, and the loser's MOVED strike is claimed (R154, R155, R157), with no READ before it (log entry 33). -/
def State.mountResolves (c : Instr) (s t : State) (w : MountWork) (todo winners : List Candidate) : Prop :=
  (((winners ++ todo).map fun p => p.key).Nodup →
      exec c s = .next { t with mount := { t.mount with work := some { w with step := .walk } } }) ∧
    ∀ (before after : List Candidate) (p q : Candidate),
      todo = before ++ q :: after → ((winners ++ before).map fun p => p.key).Nodup → p ∈ winners ++ before →
        p.key = q.key →
          let win := if firstWins p q then p else q
          let lose := if firstWins p q then q else p
          let winners' := (winners ++ before).map fun d => if d.key = q.key then win else d
          State.mountWaitsFor c s
            { t with
                mount :=
                  { t.mount with report := { t.mount.report with duplicates := t.mount.report.duplicates + 1 } } }
            { w with step := .movedStrike (.resolve after winners') }
            (.strike lose.frame .foreground (.bits [(0, transitionBits .moved lose.marker)]))

/-- `c` taken in `s` leaves `t` with the scan at the first frame from `n` on that is not bad, whose READ is claimed; with none the
candidates of the scan are resolved (R149, R155). -/
def State.mountScans (c : Instr) (s t : State) (w : MountWork) (n : Nat) : Prop :=
  (∀ f : Frame,
      nextFrame t.pools.bad 2048 n = some f → State.mountWaitsFor c s t { w with step := .scanRead } (.read f)) ∧
    (nextFrame t.pools.bad 2048 n = none → State.mountResolves c s t w (MountWork.candidates w) [])

/-- `c` taken in `s` leaves `t` with the mount going on after the end of frame `f`: with the scan after it, or with the resolution
of the candidates left (R151, R155). -/
def State.mountProceeds (c : Instr) (s t : State) (w : MountWork) (f : Frame) : MountNext → Prop
  | .scan => State.mountScans c s t w (f.val + 1)
  | .resolve todo winners => State.mountResolves c s t w todo winners

/-- A transaction is open and its command is not yet complete. -/
abbrev State.decoding (s : State) (captured : Byte) : Prop :=
  s.link.transaction = some { captured := captured, phase := .decoding }

/-- The transaction goes on with an answer. -/
def State.answered (s : State) (captured : Byte) (answer : List Byte) : State :=
  { s with link := { s.link with transaction := some { captured := captured, phase := .answering answer } } }

end Sys2Proof.Machine
end

