-- ==== Sys2Proof/Certificates/Slice0/Obligations.lean ====
section
/-! DEFINITION. The statements about the part. Each docstring names the rules of spec/ it formalises; `exec`'s outcomes are
written out as whole next states wherever the rules fix them, so that a statement is also its own frame: what it does not
name stands as it was. -/

open Sys2Proof Sys2Proof.Machine

/-! ### Steps and resets -/

/-- A step runs the command at the front of the queue on the part with the queue's rest (manual 3.4: behaviour is what a block
does when an event is taken). -/
def Obligations.StepRunsFrontCommand : Prop :=
  ∀ (c : Instr) (rest : List Instr) (s : State),
    step { s with pending := c :: rest } = exec c { s with pending := rest }

/-- R193, R192, R177, R120, R107, R191, R181, R146: power-on leaves the reset state with the mount begun, and of the array what
the cut left; an assertion of RESETN cuts array work, frees every slot, idles the controller, ends the transaction (MISO high
impedance), releases ATTN, and gives every volatile piece its reset value; at its release a mount begins with a READ of frame 0
and its report at 0, and the port takes transactions. The value of every volatile piece in the reset state. (The reset value of
the array is the model's choice, log entry 1, and is not used here. That there the mount has begun and RESETN is released is the
model's inference, log entries 2 and 18; its empty queue and its counter of free values are the model's own, log entry 27.) -/
def Obligations.ResetsClearVolatileState : Prop :=
  (State.reset =
    { pins := { powered := true, resetnLow := false }
      part := .mounting
      link :=
        { transaction := none, last := { outcome := 0xFF, tag := 0, code := 0 }, mounted := false, faultEvent := false,
          truncated := false }
      intake := { waiting := [], results := [], restartPending := false }
      engine := { job := none, held := none, epoch := none, holds := Vector.replicate 16 false }
      index := []
      policies := Vector.replicate 16 .unconfigured
      pools := { free := [], reclaim := [], quarantine := [], bad := [] }
      ctrl := { op := some (.read 0), suspended := none, waiting := none }
      mount :=
        { work := some { step := .readFormat, scanned := [] }
          report :=
            { free := 0, dirty := 0, abandoned := 0, duplicates := 0, irregular := 0, orphans := 0, corrupt := 0 }
          label := none }
      array := State.reset.array
      pending := []
      freeUses := 0 }) ∧
  (∀ (cut : FrameBits) (s : State),
      exec (.powerOn cut) s =
        .next
          { State.reset with
              array :=
                match s.ctrl.op with
                | none => s.array
                | some op => Op.cut s.array cut op
              pending := s.pending
              freeUses := s.freeUses }) ∧
  (∀ (cut : FrameBits) (s : State),
      s.pins.powered = true → s.pins.resetnLow = false →
        ∃ t : State,
          exec (.resetnAssertion cut) s = .next t ∧
            t =
              { State.reset with
                  pins := { powered := true, resetnLow := true }
                  ctrl := { op := none, suspended := none, waiting := none }
                  mount := { work := none, report := MountReport.zero, label := none }
                  array :=
                    match s.ctrl.op with
                    | none => s.array
                    | some op => Op.cut s.array cut op
                  pending := s.pending
                  freeUses := s.freeUses } ∧
            State.slots t = List.replicate 8 .free ∧ (∀ n, State.miso t n = .highImpedance) ∧
            State.attnLow t = false ∧ Controller.named t.ctrl = .idle) ∧
  (∀ s : State,
      s.pins.powered = true → s.pins.resetnLow = true →
        s.ctrl = { op := none, suspended := none, waiting := none } →
        exec .resetnRelease s =
          .next
            { s with
                pins := { powered := true, resetnLow := false }
                part := .mounting
                mount :=
                  { work := some { step := .readFormat, scanned := [] }, report := MountReport.zero,
                    label := s.mount.label }
                ctrl := { op := some (.read 0), suspended := none, waiting := none } })

/-- POWER_LOSS (opcode table, R120, R193): the loss of the supply cuts the array operation in progress and stops the part, so that
no command but POWER_ON changes it; the volatile state is then shown cleared, which is the model's choice (log entry 10). -/
def Obligations.PowerLossStopsPartUntilPowerOn : Prop :=
  (∀ (cut : FrameBits) (s : State),
      s.pins.powered = true →
        exec (.powerLoss cut) s =
          .next
            { State.reset with
                pins := { powered := false, resetnLow := s.pins.resetnLow }
                ctrl := { op := none, suspended := none, waiting := none }
                mount := { work := none, report := MountReport.zero, label := none }
                array :=
                  match s.ctrl.op with
                  | none => s.array
                  | some op => Op.cut s.array cut op
                pending := s.pending
                freeUses := s.freeUses }) ∧
  (∀ (cut : FrameBits) (s t : State) (c : Instr),
      s.pins.powered = true → exec (.powerLoss cut) s = .next t → (∀ cut', c ≠ .powerOn cut') → exec c t = .next t)

/-- R178, R179, R121, R142, R143: RESTART taken with a command in progress discards the waiting commands, becomes pending, forgets
a suspended erase, and leaves the foreground operation to run; a background ERASE or mark strike stops where it stands and the
claim that waited on it begins at once, a demand claim by erasing the reclaim queue's head as a new foreground ERASE (R131). Taken
with no command in progress it clears the volatile state at that moment and begins a mount; while MOUNTING, or while a RESTART is
pending, it is answered NOT_READY and changes nothing. That the clearing keeps the transaction on the link is the model's
inference, log entry 24. -/
def Obligations.RestartTakenOrRefused : Prop :=
  (∀ (cut : FrameBits) (captured : Byte) (s : State) (j : Job),
      State.decoding s captured → s.intake.restartPending = false → s.part ≠ .mounting → s.engine.job = some j →
        let pending (m : Memory) (job : Job) (ctrl : Controller) : Prop :=
          exec (.restart cut) s =
            .next
              (State.answered
                { s with
                    intake := { waiting := [], results := s.intake.results, restartPending := true }
                    array := m
                    engine := { s.engine with job := some job }
                    ctrl := ctrl }
                captured [0x00])
        (∀ op : Op,
            s.ctrl.op = some op → Op.isBackground op = false →
              pending s.array j { s.ctrl with suspended := none }) ∧
          (∀ (e : Erase) (since : Nat) (k : Claim) (op : Op),
            s.ctrl.op = some (.erase .background e since) → s.ctrl.waiting = some k → Claim.operation k = some op →
              pending (Memory.eraseStage s.array e.frame e.stage cut) j
                { op := some op, suspended := none, waiting := none }) ∧
          ∀ (g : Frame) (what : Strike),
            s.ctrl.op = some (.strike g .background what) →
              let m := Memory.strike s.array g (Strike.intended what) cut
              (∀ (k : Claim) (op : Op),
                  s.ctrl.waiting = some k → Claim.operation k = some op →
                    pending m j { op := some op, suspended := none, waiting := none }) ∧
                ∀ (w : Writing) (f : Frame) (more : List Frame),
                  s.ctrl.waiting = some .demand → j.step = .takeWait w → s.pools.free = [] →
                    s.pools.reclaim = f :: more → 3 ≤ f.val →
                    pending m { j with step := .takeErase w }
                      { op :=
                          some
                            (.erase .foreground
                              { frame := f, attempt := .first, stage := .markerRetirement, progress := 0 } 0)
                        suspended := none, waiting := none }) ∧
  (∀ (cut : FrameBits) (captured : Byte) (s : State),
      State.decoding s captured →
        (s.intake.restartPending = false → s.part ≠ .mounting → s.engine.job = none →
            exec (.restart cut) s =
              .next
                (State.answered
                  { State.reset with
                      pins := s.pins
                      array :=
                        match s.ctrl.op with
                        | none => s.array
                        | some op => if Op.isBackground op then Op.cut s.array cut op else s.array
                      pending := s.pending
                      freeUses := s.freeUses }
                  captured [0x00])) ∧
          (s.intake.restartPending = true ∨ s.part = .mounting →
            exec (.restart cut) s = .next (State.answered s captured [0x17])))

/-- R178, R179, R164, R142, R146: while a RESTART is pending no result record is posted: in every step the result queue stands as
it was or is cleared (the shifting out of a record apart, which no COLLECT taken then begins). An event of the array controller
then does to the command in progress what it does with no RESTART pending, until that command completes there, or is a FORMAT
whose record strike completes: at that moment the volatile state is cleared to its reset values, the array as the event leaves it,
and a mount begins. That the clearing keeps the transaction on the link, which R181 ends with chip select or RESETN alone, is the
model's inference, log entry 24. -/
def Obligations.PendingRestartEndsInClearing : Prop :=
  (∀ s t : State,
      s.intake.restartPending = true → s.pending.head? ≠ some .recordShiftedOut → step s = .next t →
        t.intake.results = s.intake.results ∨ t.intake.results = []) ∧
  ∀ (s t : State) (c : Instr) (j : Job),
    arrayEvent c → s.intake.restartPending = true → s.mount.work = none → s.engine.job = some j →
      EngineStep.mounts j.step = false →
      exec c { s with intake := { s.intake with restartPending := false } } = .next t →
        let clears : Prop :=
          exec c s =
            .next
              { State.reset with
                  pins := s.pins
                  link := { State.reset.link with transaction := s.link.transaction }
                  array := t.array
                  pending := s.pending
                  freeUses := t.freeUses }
        (t.engine.job = none → clears) ∧
          ∀ j' : Job,
            t.engine.job = some j' →
              (EngineStep.mounts j'.step = true → clears) ∧
                (EngineStep.mounts j'.step = false →
                  exec c s = .next { t with intake := { t.intake with restartPending := true } })

/-! ### The link port -/

/-- R181, R182, R189, R127: chip select falling begins a transaction, captures the port status byte, and changes nothing else;
chip select rising ends the transaction and returns MISO to high impedance, and a command not yet taken has changed nothing. MISO
carries the captured byte in byte 0, then the bytes shifted out, then H'FF for any further byte. What each bit of the port status
byte shows (R191: ATTN is low in a part that takes transactions while RESULT_WAITING, MOUNTED or FAULT_EVENT is set, and released
otherwise; that it is low too when the mount after power-on or after a RESTART sets FAULT_EVENT is the model's choice, log entry
31), and the value of its part state field in each part state. -/
def Obligations.ChipSelectBoundsTransaction : Prop :=
  (∀ s : State,
      s.pins.powered = true → s.pins.resetnLow = false → s.link.transaction = none →
        exec .chipSelectFall s =
          .next
            { s with
                link :=
                  { s.link with transaction := some { captured := State.portStatus s, phase := .decoding } } }) ∧
  (∀ s : State,
      ∃ t : State,
        exec .transactionEnd s = .next t ∧ t = { s with link := { s.link with transaction := none } } ∧
          ∀ n, State.miso t n = .highImpedance) ∧
  (∀ (s : State) (captured : Byte) (out : List Byte),
      (s.link.transaction = some { captured := captured, phase := .answering out } ∨
        s.link.transaction = some { captured := captured, phase := .collecting out }) →
        State.miso s 0 = .carries captured ∧
          ∀ n, State.miso s (n + 1) = .carries (if h : n < out.length then out[n] else 0xFF)) ∧
  ∀ s : State,
    ((State.portStatus s).getLsbD 7 = true ↔ s.intake.results ≠ [] ∧ s.intake.restartPending = false) ∧
      (State.portStatus s).getLsbD 6 = s.link.mounted ∧
      (State.portStatus s).getLsbD 5 = s.link.faultEvent ∧
      ((State.portStatus s).getLsbD 4 = true ↔ s.part = .ready ∧ s.pools.free.length < 8) ∧
      (State.portStatus s).getLsbD 3 = s.link.truncated ∧
      (State.portStatus s) &&& 7 = PartState.field s.part ∧
      ([.mounting, .ready, .unformatted, .faulted, .formatting] : List PartState).map PartState.field = [0, 1, 2, 3, 4] ∧
      (State.attnLow s = true ↔
        s.pins.powered = true ∧ s.pins.resetnLow = false ∧
          (s.intake.results ≠ [] ∧ s.intake.restartPending = false ∨ s.link.mounted = true ∨
            s.link.faultEvent = true))

/-- R181, R184, R185, R194: the bytes of a transaction spell the command of their code once they are as many as the table requires
(no argument byte for STATUS, COLLECT, INFO and RESTART, four for SET EPOCH, one for the others; H'40 to H'7F begin a submission):
each immediate command with its own arguments; a submission by its code, tag, L, L argument bytes and four link CRC bytes; fewer
bytes spell none. (RESTART's operand is the physics of a cut, no byte: log entry 4.) -/
def Obligations.TransactionBytesSpellCommands : Prop :=
  (∀ (cut : FrameBits) (a b c d : Byte),
      transactionCommand cut [0x01] = some .status ∧ transactionCommand cut [0x02] = some .collect ∧
        transactionCommand cut [0x03] = some .info ∧
        transactionCommand cut [0x04, a, b, c, d] = some (.setEpoch (a ++ b ++ c ++ d)) ∧
        transactionCommand cut [0x05, a] = some (.holdClass a) ∧
        transactionCommand cut [0x06, a] = some (.releaseClass a) ∧
        transactionCommand cut [0x07, a] = some (.cancel a) ∧ transactionCommand cut [0x08] = some (.restart cut)) ∧
  (∀ (cut : FrameBits) (code : Byte) (given : List Byte),
      (code.toNat = 0 ∨ 9 ≤ code.toNat ∧ code.toNat < 0x40 ∨ 0x80 ≤ code.toNat →
          transactionCommand cut [code] = some (.unknownImmediateCommand code)) ∧
        ∀ n : Nat,
          immediateArguments code = some n → given.length < n → transactionCommand cut (code :: given) = none) ∧
  (∀ (cut : FrameBits) (code tag : Byte) (args : List Byte) (crc : Word),
      0x40 ≤ code.toNat → code.toNat ≤ 0x7F → args.length ≤ 255 →
        transactionCommand cut (submissionBytes code tag args ++ be32 crc) = some (.submission code tag args crc)) ∧
  (∀ (cut : FrameBits) (bytes : List Byte), incompleteSubmission bytes = true → transactionCommand cut bytes = none) ∧
  (([1, 2, 3, 4, 5, 6, 7, 8] : List Byte).map immediateArguments =
      [some 0, some 0, some 0, some 4, some 1, some 1, some 1, some 0] ∧
    ∀ code : Byte, code.toNat = 0 ∨ 9 ≤ code.toNat → immediateArguments code = none) ∧
  (∀ (code tag : Byte) (args : List Byte),
    submissionBytes code tag args = code :: tag :: BitVec.ofNat 8 args.length :: args) ∧
  ∀ bytes : List Byte,
    incompleteSubmission bytes = true ↔
      ∃ (code : Byte) (rest : List Byte),
        bytes = code :: rest ∧ 0x40 ≤ code.toNat ∧ code.toNat ≤ 0x7F ∧
          ∀ (tag len : Byte) (more : List Byte), rest = tag :: len :: more → more.length < len.toNat + 4

/-- R184, R186, R194, R165, R166, R167, R187, R185: the length each submitted command requires, the slots in use and the tags in
use; a submission that passes every check takes a slot at the tail of the intake queue; otherwise the first check that fails
refuses it with its code, and it changes nothing but the last-submission outcome, TRUNCATED and what is shifted out, which is H'FF
in bytes 1 to 6 + L and the acceptance code in byte 7 + L. A truncated submission is discarded, sets TRUNCATED, and leaves the
last-submission outcome as it was. -/
def Obligations.SubmissionDecidedByFirstFailingCheck : Prop :=
  (∀ (code : Byte) (args : List Byte),
      (submissionCode code = true ↔ 0x40 ≤ code.toNat ∧ code.toNat ≤ 0x7F) ∧
        (code = 0x41 →
          (args.length < 17 → requiredLength code args = some none) ∧
            (17 ≤ args.length → requiredLength code args = some (some (17 + (argByte args 16).toNat)))) ∧
        (code ∈ ([0x42, 0x45, 0x46, 0x47, 0x4A] : List Byte) → requiredLength code args = some (some 4)) ∧
        (code = 0x43 → requiredLength code args = some (some 7)) ∧
        (code = 0x44 → requiredLength code args = some (some 15)) ∧
        (code = 0x48 → requiredLength code args = some (some 9)) ∧
        (code = 0x49 → requiredLength code args = some (some 0)) ∧
        (code.toNat < 0x41 ∨ 0x4A < code.toNat → requiredLength code args = none)) ∧
  (∀ s : State,
      State.slotsInUse s =
          s.intake.results.length + (if s.engine.job = none then 0 else 1) + s.intake.waiting.length ∧
        ∀ tag : Byte,
          tag ∈ State.tagsInUse s ↔
            (∃ r ∈ s.intake.results, r.cmd.tag = tag) ∨ (∃ j : Job, s.engine.job = some j ∧ j.cmd.tag = tag) ∨
              ∃ c ∈ s.intake.waiting, c.tag = tag) ∧
  (∀ (code tag : Byte) (args : List Byte) (crc : Word) (captured : Byte) (s : State),
      State.decoding s captured → submissionCode code = true → args.length ≤ 255 →
        crc = linkCrc (code :: tag :: BitVec.ofNat 8 args.length :: args) →
        requiredLength code args = some (some args.length) → s.intake.restartPending = false →
        (s.part = .ready ∨ (s.part = .unformatted ∨ s.part = .faulted) ∧ code = 0x4A) → tag ≠ 0 →
        tag ∉ State.tagsInUse s → State.slotsInUse s < 8 →
          exec (.submission code tag args crc) s =
            .next
              { s with
                  intake :=
                    { s.intake with
                        waiting := s.intake.waiting ++ [{ tag := tag, code := code, args := args }] }
                  link :=
                    { s.link with
                        transaction :=
                          some
                            { captured := captured
                              phase := .answering (List.replicate (6 + args.length) 0xFF ++ [0x20]) }
                        last := { outcome := 0x20, tag := tag, code := code }
                        truncated := false } }) ∧
  (∀ (code tag : Byte) (args : List Byte) (crc : Word) (captured : Byte) (s : State),
      State.decoding s captured → submissionCode code = true → args.length ≤ 255 →
        let refusedWith (d : Byte) : Prop :=
          exec (.submission code tag args crc) s =
            .next
              { s with
                  link :=
                    { s.link with
                        transaction :=
                          some
                            { captured := captured
                              phase := .answering (List.replicate (6 + args.length) 0xFF ++ [d]) }
                        last := { outcome := d, tag := tag, code := code }
                        truncated := false } }
        let admitted : Prop :=
          s.intake.restartPending = false ∧
            (s.part = .ready ∨ (s.part = .unformatted ∨ s.part = .faulted) ∧ code = 0x4A)
        (crc ≠ linkCrc (code :: tag :: BitVec.ofNat 8 args.length :: args) → refusedWith 0x24) ∧
          (crc = linkCrc (code :: tag :: BitVec.ofNat 8 args.length :: args) →
            (requiredLength code args = none → refusedWith 0x26) ∧
              ∀ required : Option Nat,
                requiredLength code args = some required →
                  (required ≠ some args.length → refusedWith 0x25) ∧
                    (required = some args.length →
                      (¬ admitted → refusedWith 0x17) ∧
                        (admitted →
                          (tag = 0 → refusedWith 0x22) ∧
                            (tag ≠ 0 →
                              (tag ∈ State.tagsInUse s → refusedWith 0x23) ∧
                                (tag ∉ State.tagsInUse s → 8 ≤ State.slotsInUse s → refusedWith 0x21)))))) ∧
  (∀ (bytes : List Byte) (captured : Byte) (s : State),
      State.decoding s captured → incompleteSubmission bytes = true →
        exec (.submissionTruncated bytes) s =
          .next { s with link := { s.link with transaction := none, truncated := true } })

/-- R183, R189: STATUS returns the last-submission outcome, tag and code, and clears MOUNTED when the captured byte showed it set;
an unknown code is answered UNKNOWN_COMMAND and changes no state. -/
def Obligations.StatusAndUnknownCodeAnswers : Prop :=
  (∀ (captured : Byte) (s : State),
      State.decoding s captured →
        exec .status s =
          .next
            (State.answered
              { s with link := { s.link with mounted := if captured.getLsbD 6 then false else s.link.mounted } }
              captured [s.link.last.outcome, s.link.last.tag, s.link.last.code])) ∧
  (∀ (code : Byte) (captured : Byte) (s : State),
      State.decoding s captured → (code.toNat = 0 ∨ 9 ≤ code.toNat ∧ code.toNat < 0x40 ∨ 0x80 ≤ code.toNat) →
        exec (.unknownImmediateCommand code) s = .next (State.answered s captured [0x26]))

/-- R173, R174, R178, R190, R166: COLLECT is answered NOT_READY while a RESTART is pending, NONE when the result queue is empty,
and otherwise DONE with the head record, which stays at the head; when its last byte has been shifted out it leaves the result
queue, its slot becomes FREE and its tag is no longer in use; a transaction that ends before that leaves it at the head. -/
def Obligations.CollectHandsOutHeadRecordWhole : Prop :=
  (∀ (captured : Byte) (s : State),
      State.decoding s captured →
        (s.intake.restartPending = true → exec .collect s = .next (State.answered s captured [0x17])) ∧
          (s.intake.restartPending = false → s.intake.results = [] →
            exec .collect s = .next (State.answered s captured [0x16])) ∧
          ∀ (r : Record) (rest : List Record),
            s.intake.restartPending = false → s.intake.results = r :: rest →
              exec .collect s =
                .next
                  { s with
                      link :=
                        { s.link with
                            transaction :=
                              some { captured := captured, phase := .collecting (0x00 :: Record.bytes r) } } }) ∧
  (∀ (captured : Byte) (answer : List Byte) (s : State) (r : Record) (rest : List Record),
      s.link.transaction = some { captured := captured, phase := .collecting answer } → s.intake.results = r :: rest →
        (∃ t : State,
            exec .recordShiftedOut s = .next t ∧
              t =
                State.answered { s with intake := { s.intake with results := rest } } captured answer ∧
              State.slotsInUse t + 1 = State.slotsInUse s ∧
              ((State.tagsInUse s).Nodup → r.cmd.tag ∉ State.tagsInUse t)) ∧
          exec .transactionEnd s = .next { s with link := { s.link with transaction := none } })

/-- R180, R137, R197: INFO answers the snapshot, clears FAULT_EVENT and changes nothing else of the part (the counter of free
values is the model's own, log entry 7). -/
def Obligations.InfoClearsFaultEvent : Prop :=
  ∀ (captured : Byte) (s : State),
    State.decoding s captured →
      exec .info s =
        .next
          (State.answered
            { s with link := { s.link with faultEvent := false }, freeUses := s.freeUses + 1 }
            captured (State.infoBytes s))

/-- R43, R44: SET EPOCH is taken in READY and MOUNTING, refuses a lower value, and changes nothing but the epoch (the counter of
free values is the model's own). The epoch bytes of an answer whose epoch is unset are free, the model's choice of log entry 7,
and so is what MISO carries while the argument bytes are clocked in, log entry 28. -/
def Obligations.SetEpochNeverLowers : Prop :=
  ∀ (value : Word) (captured : Byte) (s : State),
    State.decoding s captured →
      let answers (code : Byte) (epoch : Option Word) : Prop :=
        exec (.setEpoch value) s =
          .next
            (State.answered
              { s with engine := { s.engine with epoch := epoch }, freeUses := s.freeUses + 1 }
              captured
              ((List.range 4).map (Config.misoDuringArguments s.freeUses) ++
                code ::
                  match epoch with
                  | some e => (1 : Byte) :: be32 e
                  | none => (0 : Byte) :: be32 (Config.unsetEpochField s.freeUses)))
      (s.part = .ready ∨ s.part = .mounting →
          (s.engine.epoch = none → answers 0x00 (some value)) ∧
            ∀ e : Word,
              s.engine.epoch = some e →
                (e.toNat ≤ value.toNat → answers 0x00 (some value)) ∧
                  (value.toNat < e.toNat → answers 0x15 (some e))) ∧
        (s.part = .unformatted ∨ s.part = .faulted ∨ s.part = .formatting → answers 0x17 s.engine.epoch)

/-- R102, R103, R105: HOLD CLASS and RELEASE CLASS in READY change the hold of the class named and no other; outside READY, or for
a class above 15, every hold is unchanged. The hold bytes of a class above 15 are free, the model's choice of log entry 9, and so
is what MISO carries while the argument byte is clocked in, log entry 28. -/
def Obligations.HoldAndReleaseChangeOneHold : Prop :=
  (∀ (holds : Vector Bool 16) (k j : ClassNo) (hold : Bool),
    (setClass holds k hold)[j] = if j = k then hold else holds[j]) ∧
  ∀ (cls : Byte) (captured : Byte) (s : State) (hold : Bool),
    State.decoding s captured →
      let command : Instr := if hold then .holdClass cls else .releaseClass cls
      let answers (holds : Vector Bool 16) (outcome before after : Byte) : Prop :=
        exec command s =
          .next
            (State.answered
              { s with engine := { s.engine with holds := holds }, freeUses := s.freeUses + 1 } captured
              [Config.misoDuringArguments s.freeUses 0, outcome, cls, before, after])
      (∀ k : ClassNo,
          cls.toNat = k.val →
            (s.part = .ready →
                answers (setClass s.engine.holds k hold) 0x00 (boolByte s.engine.holds[k]) (boolByte hold)) ∧
              (s.part ≠ .ready →
                answers s.engine.holds 0x17 (boolByte s.engine.holds[k]) (boolByte s.engine.holds[k]))) ∧
        (16 ≤ cls.toNat →
          answers s.engine.holds (if s.part = .ready then 0x04 else 0x17)
            (Config.holdBeforeOfNoClass s.freeUses) (Config.holdAfterOfNoClass s.freeUses))

/-- R175, R176: CANCEL takes a WAITING command out of the intake queue with a CANCELLED record; of any other tag, and while a
RESTART is pending, it changes nothing (the counter of free values, and what MISO carries while the tag is clocked in, are the
model's own, log entry 28). It answers the slot state of the tag: none, WAITING, EXECUTING or RESULT; that it does so with
NOT_READY and BAD_ARGUMENT too is the model's inference, log entry 20. -/
def Obligations.CancelRemovesWaitingCommand : Prop :=
  (∀ (s : State) (tag : Byte),
      (tag ∉ State.tagsInUse s → State.slotStateByte s tag = 0) ∧
        ((State.tagsInUse s).Nodup →
          ((∃ c ∈ s.intake.waiting, c.tag = tag) → State.slotStateByte s tag = 1) ∧
            ((∃ j : Job, s.engine.job = some j ∧ j.cmd.tag = tag) → State.slotStateByte s tag = 2) ∧
            ((∃ r ∈ s.intake.results, r.cmd.tag = tag) → State.slotStateByte s tag = 3))) ∧
  ∀ (tag : Byte) (captured : Byte) (s : State),
    State.decoding s captured →
      let answers (intake : Intake) (outcome slot : Byte) : Prop :=
        exec (.cancel tag) s =
          .next
            (State.answered { s with intake := intake, freeUses := s.freeUses + 1 } captured
              [Config.misoDuringArguments s.freeUses 0, outcome, tag, slot])
      (∀ (before after : List Command) (cmd : Command),
          s.intake.restartPending = false → tag ≠ 0 → s.intake.waiting = before ++ cmd :: after → cmd.tag = tag →
            (State.tagsInUse s).Nodup →
            answers
              { s.intake with
                  waiting := before ++ after
                  results :=
                    s.intake.results ++
                      [{ cmd := cmd, result := { outcome := .cancelled, flags := {}, payload := .nothing } }] }
              0x00 0x01) ∧
        (s.intake.restartPending = true → answers s.intake 0x17 (State.slotStateByte s tag)) ∧
        (s.intake.restartPending = false →
          (tag = 0 → answers s.intake 0x04 (State.slotStateByte s tag)) ∧
            (tag ≠ 0 → tag ∉ State.tagsInUse s → answers s.intake 0x02 0x00) ∧
            (∀ j : Job,
              tag ≠ 0 → (State.tagsInUse s).Nodup → s.engine.job = some j → j.cmd.tag = tag →
                answers s.intake 0x14 0x02) ∧
            (tag ≠ 0 → (State.tagsInUse s).Nodup → (∃ r ∈ s.intake.results, r.cmd.tag = tag) →
              answers s.intake 0x14 0x03))

/-- R181, R170: outside a transaction, and after a transaction's command is complete, no command on the link has any effect; no
dispatch is made while a command is in progress, while a RESTART is pending, or in MOUNTING or FORMATTING. -/
def Obligations.NothingTakenOutOfTurn : Prop :=
  (∀ (s : State) (c : Instr),
      (∀ captured, ¬ State.decoding s captured) →
        (c = .status ∨ c = .collect ∨ c = .info ∨ (∃ v, c = .setEpoch v) ∨ (∃ k, c = .holdClass k) ∨
          (∃ k, c = .releaseClass k) ∨ (∃ tag, c = .cancel tag) ∨ (∃ cut, c = .restart cut) ∨
          (∃ code, c = .unknownImmediateCommand code) ∨ (∃ code tag args crc, c = .submission code tag args crc) ∨
          ∃ bytes, c = .submissionTruncated bytes) →
          exec c s = .next s) ∧
    ∀ (s : State) (c : Instr),
      (s.engine.job ≠ none ∨ s.intake.restartPending = true ∨ s.part = .mounting ∨ s.part = .formatting) →
        (c = .issue ∨ c = .lookup ∨ c = .draw ∨ c = .topup ∨ c = .move ∨ c = .revoke ∨ c = .list ∨
          c = .configureClass ∨ c = .purgeOrphans ∨ ∃ cut, c = .format cut) →
          exec c s = .next s

/-! ### Dispatches -/

/-- R36, R83, R27, R114, R196: what a find answers; LOOKUP and REVOKE of an absent key report NOT_FOUND, and LOOKUP of a corrupt
entry CORRUPT, none with an array operation; LOOKUP of a live entry, and REVOKE of any, claims a READ of the entry's frame, with
the epoch, holds and statuses of the dispatch; the claim waits while a background operation progresses. The key that LOOKUP's
NOT_FOUND record carries is the model's inference, log entry 20. -/
def Obligations.LookupAndRevokeDispatch : Prop :=
  (∀ (index : List Entry) (key : Word),
      (findEntry index key = none ↔ ∀ e ∈ index, e.key ≠ key) ∧
        ∀ e : Entry, findEntry index key = some e → e ∈ index ∧ e.key = key) ∧
  (∀ cmd : Command, cmd.key = argWord cmd.args 0) ∧
  ∀ (s : State) (cmd : Command) (rest : List Command),
    let snap : Snapshot := { epoch := s.engine.epoch, holds := s.engine.holds, policies := s.policies }
    (State.dispatchDue s 0x42 cmd rest →
        (findEntry s.index cmd.key = none →
            exec .lookup s =
              .next
                (State.endedAtDispatch s cmd rest
                  { outcome := .notFound, flags := {}, payload := .lookup cmd.key none none })) ∧
          ∀ e : Entry,
            findEntry s.index cmd.key = some e →
              (e.cls = none →
                  exec .lookup s =
                    .next
                      (State.endedAtDispatch s cmd rest
                        { outcome := .corrupt, flags := {}, payload := .lookup e.key (some e.gen) none })) ∧
                (e.cls ≠ none →
                  State.dispatchClaims .lookup s s cmd rest (.lookupRead snap e) (.read e.frame) (.read e.frame))) ∧
      (State.dispatchDue s 0x46 cmd rest →
        (findEntry s.index cmd.key = none →
            exec .revoke s =
              .next
                (State.endedAtDispatch s cmd rest
                  { outcome := .notFound, flags := {}, payload := .revoke cmd.key none none })) ∧
          ∀ e : Entry,
            findEntry s.index cmd.key = some e →
              State.dispatchClaims .revoke s s cmd rest (.revokeRead snap e) (.read e.frame) (.read e.frame))

/-- R45, R46, R114, R196: DRAW checks its arguments (units 1 to 1024, mode EXACT or UPTO), then finds the key, and with a live
entry claims a READ of its frame, which waits while a background operation progresses. -/
def Obligations.DrawDispatch : Prop :=
  (∀ (args : List Byte) (o : Nat),
    argByte args o = args.getD o 0 ∧
      argNat16 args o = (argByte args o).toNat * 256 + (argByte args (o + 1)).toNat) ∧
  (∀ args : List Byte,
      let units := argNat16 args 4
      let inRange : Prop := 1 ≤ units ∧ units ≤ 1024
      (¬ inRange → drawArgs args = none) ∧
        (inRange →
          (argByte args 6 = 0 → drawArgs args = some (units, .exact)) ∧
            (argByte args 6 = 1 → drawArgs args = some (units, .upto)) ∧
            (argByte args 6 ≠ 0 → argByte args 6 ≠ 1 → drawArgs args = none))) ∧
  ∀ (s : State) (cmd : Command) (rest : List Command),
    State.dispatchDue s 0x43 cmd rest →
      let valid : Prop :=
        1 ≤ argNat16 cmd.args 4 ∧ argNat16 cmd.args 4 ≤ 1024 ∧ (argByte cmd.args 6 = 0 ∨ argByte cmd.args 6 = 1)
      let ends (outcome : Code) (key : Word) (gen : Option Gen) : Prop :=
        exec .draw s =
          .next
            (State.endedAtDispatch s cmd rest
              { outcome := outcome, flags := {}, payload := .draw key gen 0 none })
      (¬ valid → ends .badArgument cmd.key none) ∧
        (valid →
          (findEntry s.index cmd.key = none → ends .notFound cmd.key none) ∧
            ∀ e : Entry,
              findEntry s.index cmd.key = some e →
                (e.cls = none → ends .corrupt e.key (some e.gen)) ∧
                  (e.cls ≠ none →
                    State.dispatchClaims .draw s s cmd rest
                      (.drawRead { epoch := s.engine.epoch, holds := s.engine.holds, policies := s.policies } e)
                      (.read e.frame) (.read e.frame)))

/-- R69, R68, R70, R65, R66, R126, R114, R196: ISSUE's arguments in range (a key that is neither H'00000000 nor H'FFFFFFFF, a
class to 15, an allowance 1 to 1024, opens below closes in a window that is given, a label to 24 bytes) are the record it writes;
out of range they are BAD_ARGUMENT. Then its checks in order, and when all pass the take of the free pool's head and the OPENING
strike of its marker's bit 7, whose claim waits while a background operation progresses. -/
def Obligations.IssueDispatch : Prop :=
  (∀ (args : List Byte) (o : Nat),
    argWord args o = argByte args o ++ argByte args (o + 1) ++ argByte args (o + 2) ++ argByte args (o + 3)) ∧
  (∀ args : List Byte,
      let key := argWord args 0
      let allowance := argNat16 args 5
      let length := (argByte args 16).toNat
      let window : Option Window :=
        if argByte args 7 = 0 then none else some { opens := argWord args 8, closes := argWord args 12 }
      let inRange : Prop :=
        key ≠ 0 ∧ key ≠ 0xFFFFFFFF ∧ 1 ≤ allowance ∧ allowance ≤ 1024 ∧
          (∀ w : Window, window = some w → w.opens.toNat < w.closes.toNat) ∧ length ≤ 24
      (16 ≤ (argByte args 4).toNat → issueRecord args = none) ∧
        (¬ inRange → issueRecord args = none) ∧
        ∀ k : ClassNo,
          (argByte args 4).toNat = k.val → inRange →
            issueRecord args =
              some
                { key := key, gen := 0, cls := k, allowance := allowance, window := window
                  label := (List.range length).map fun i => argByte args (17 + i)
                  topups := 0 }) ∧
  ∀ (s : State) (cmd : Command) (rest : List Command),
    State.dispatchDue s 0x41 cmd rest →
      let ends (outcome : Code) (gen : Option Gen) : Prop :=
        exec .issue s =
          .next
            (State.endedAtDispatch s cmd rest
              { outcome := outcome, flags := {}, payload := .issue cmd.key none gen none 0 })
      (issueRecord cmd.args = none → ends .badArgument none) ∧
        ∀ r : NewRecord,
          issueRecord cmd.args = some r →
            (s.policies[r.cls] = .unconfigured → ends .noPolicy none) ∧
              (s.policies[r.cls] = .faulted → ends .policyFault none) ∧
              ∀ p : Policy,
                s.policies[r.cls] = .set p →
                  (p.windowRequired = true → r.window = none → ends .notPermitted none) ∧
                    ((p.windowRequired = false ∨ r.window ≠ none) →
                      (∀ e : Entry, findEntry s.index r.key = some e → ends .keyExists (some e.gen)) ∧
                        ∀ (f : Frame) (free : List Frame),
                          findEntry s.index r.key = none → s.pools.free = f :: free →
                            State.dispatchClaims .issue s
                              { s with
                                  pools := { s.pools with free := free }
                                  engine := { s.engine with held := some f } }
                              cmd rest (.openingStrike { record := r, failed := 0, old := none })
                              (.strike f (.bits [(0, 0x80)])) (.strike f .foreground (.bits [(0, 0x80)])))

/-- R131, R132, R118, R65, R72, R114, R134, R135: a take that finds the free pool empty resumes the suspended erase in the
foreground where it stood, or takes over a progressing background ERASE with its attempt, stage and progress, or waits for a
progressing background mark strike, or erases the head of the reclaim queue from its first attempt; with the reclaim queue empty
too and no erase in existence it fails, and the ISSUE ends with FULL and changes nothing else. When the mark strike waited for
completes the take goes on with the reclaim queue that is left. A demand ERASE verified blank gives its frame to the command,
which strikes it OPENING; failed at its retry, at stage 1 or at blank verify, the frame's mark is struck, and at that strike's
completion the frame leaves the reclaim queue for the bad-frame map or the quarantine set and the take goes on with the next, or
fails. -/
def Obligations.TakeFromEmptyPool : Prop :=
  (∀ (s : State) (cmd : Command) (rest : List Command) (r : NewRecord) (p : Policy),
      State.dispatchDue s 0x41 cmd rest → issueRecord cmd.args = some r → s.policies[r.cls] = .set p →
        (p.windowRequired = false ∨ r.window ≠ none) → findEntry s.index r.key = none → s.pools.free = [] →
        let w : Writing := { record := r, failed := 0, old := none }
        let inForeground (e : Erase) (since : Nat) : Prop :=
          exec .issue s =
            .next
              { State.headLeft s rest with
                  engine := { s.engine with job := some { cmd := cmd, step := .takeErase w } }
                  ctrl := { s.ctrl with op := some (.erase .foreground e since), suspended := none } }
        (∀ e : Erase, s.ctrl.suspended = some e → inForeground e 0) ∧
          (∀ (e : Erase) (since : Nat),
            s.ctrl.suspended = none → s.ctrl.op = some (.erase .background e since) → inForeground e since) ∧
          (∀ (g : Frame) (what : Strike),
            s.ctrl.suspended = none → s.ctrl.op = some (.strike g .background what) →
              exec .issue s = .next (State.waitsAtDispatch s cmd rest (.takeWait w) .demand)) ∧
          (∀ (f : Frame) (more : List Frame),
            s.ctrl.suspended = none → s.ctrl.op = none → s.pools.reclaim = f :: more → 3 ≤ f.val →
              exec .issue s =
                .next
                  (State.startedAtDispatch s cmd rest (.takeErase w)
                    (.erase .foreground
                      { frame := f, attempt := .first, stage := .markerRetirement, progress := 0 } 0))) ∧
          (s.ctrl.suspended = none → s.ctrl.op = none → s.pools.reclaim = [] →
            exec .issue s =
              .next
                (State.endedAtDispatch s cmd rest
                  { outcome := .full, flags := {}, payload := .issue r.key none none none 0 }))) ∧
  (∀ (s : State) (cmd : Command) (w : Writing),
      s.mount.work = none → s.intake.restartPending = false → s.pools.free = [] → s.ctrl.suspended = none →
        let full (t : State) : State :=
          State.posted t cmd
            { outcome := .full, flags := {}
              payload :=
                match w.old with
                | none => .issue w.record.key none none none w.failed
                | some o =>
                  .relocation w.record.key (some o.frame) (some o.gen) none (some o.remaining) (some o.topups)
                    w.failed }
        let erases (t : State) (g : Frame) : State :=
          State.wentOn t cmd (.takeErase w)
            (.erase .foreground { frame := g, attempt := .first, stage := .markerRetirement, progress := 0 } 0)
        let goesOn (c : Instr) (t : State) (left : List Frame) : Prop :=
          (left = [] → exec c s = .next (full { t with ctrl := { s.ctrl with op := none, waiting := none } })) ∧
            ∀ (g : Frame) (more : List Frame), left = g :: more → 3 ≤ g.val → exec c s = .next (erases t g)
        let marked (m : Memory) (f : Frame) (left : List Frame) (verified : Bool) : State :=
          { s with
              array := m
              link := { s.link with faultEvent := s.link.faultEvent || !verified }
              pools :=
                { s.pools with
                    reclaim := left
                    bad := if verified then insertFrame f s.pools.bad else s.pools.bad
                    quarantine := if verified then s.pools.quarantine else insertFrame f s.pools.quarantine } }
        (∀ (what : Strike) (stuck : FrameBits) (f : Frame) (left : List Frame),
            s.ctrl.op = some (.strike 2 .background what) → s.ctrl.waiting = some .demand →
              s.engine.job = some { cmd := cmd, step := .takeWait w } → s.pools.reclaim = f :: left →
              let m := Memory.strike s.array 2 (Strike.intended what) stuck
              goesOn (.strikeComplete stuck) (marked m f left (Strike.verifies what (Memory.image m 2))) left) ∧
          (∀ (e : Erase) (since : Nat),
            s.ctrl.op = some (.erase .foreground e since) → e.stage = .blankVerify → 3 ≤ e.frame.val →
              s.engine.job = some { cmd := cmd, step := .takeErase w } →
              (Image.blank (Memory.image s.array e.frame) = true →
                  exec .blankVerify s =
                    .next
                      (State.wentOn
                        { s with
                            pools := { s.pools with reclaim := s.pools.reclaim.filter fun g => g ≠ e.frame }
                            engine := { s.engine with held := some e.frame } }
                        cmd (.openingStrike w) (.strike e.frame .foreground (.bits [(0, 0x80)]))))) ∧
          (∀ (e : Erase) (c : Instr) (t : State),
            State.attemptFails s .foreground e c t → e.attempt = .retry → 3 ≤ e.frame.val →
              s.engine.job = some { cmd := cmd, step := .takeErase w } →
              exec c s =
                .next
                  (State.wentOn t cmd (.takeMark e.frame w)
                    (.strike 2 .foreground (.bits [(e.frame.val / 8, (0x80 : Byte) >>> (e.frame.val % 8))])))) ∧
          ∀ (what : Strike) (stuck : FrameBits) (f : Frame),
            s.ctrl.op = some (.strike 2 .foreground what) → s.ctrl.waiting = none →
              s.engine.job = some { cmd := cmd, step := .takeMark f w } →
              let m := Memory.strike s.array 2 (Strike.intended what) stuck
              let left := s.pools.reclaim.filter fun g => g ≠ f
              goesOn (.strikeComplete stuck) (marked m f left (Strike.verifies what (Memory.image m 2))) left)

/-- R74, R77, R27, R80, R114, R196: TOPUP checks its arguments (units added 1 to 1023, opens below closes in a window that is
given); TOPUP and MOVE find the key, and with a live entry claim a READ of its frame, which waits while a background operation
progresses. -/
def Obligations.TopupAndMoveDispatch : Prop :=
  (∀ args : List Byte,
      let units := argNat16 args 4
      let window : Option Window :=
        if argByte args 6 = 0 then none else some { opens := argWord args 7, closes := argWord args 11 }
      let inRange : Prop :=
        1 ≤ units ∧ units ≤ 1023 ∧ ∀ w : Window, window = some w → w.opens.toNat < w.closes.toNat
      (¬ inRange → topupArgs args = none) ∧ (inRange → topupArgs args = some (units, window))) ∧
  ∀ (s : State) (cmd : Command) (rest : List Command),
    let bare (outcome : Code) (key : Word) (gen : Option Gen) : Result :=
      { outcome := outcome, flags := {}, payload := .relocation key none gen none none none 0 }
    (State.dispatchDue s 0x44 cmd rest →
        (topupArgs cmd.args = none →
            exec .topup s = .next (State.endedAtDispatch s cmd rest (bare .badArgument cmd.key none))) ∧
          (topupArgs cmd.args ≠ none →
            (findEntry s.index cmd.key = none →
                exec .topup s = .next (State.endedAtDispatch s cmd rest (bare .notFound cmd.key none))) ∧
              ∀ e : Entry,
                findEntry s.index cmd.key = some e →
                  (e.cls = none →
                      exec .topup s =
                        .next (State.endedAtDispatch s cmd rest (bare .corrupt e.key (some e.gen)))) ∧
                    (e.cls ≠ none →
                      State.dispatchClaims .topup s s cmd rest
                        (.topupRead { epoch := s.engine.epoch, holds := s.engine.holds, policies := s.policies } e)
                        (.read e.frame) (.read e.frame)))) ∧
      (State.dispatchDue s 0x45 cmd rest →
        (findEntry s.index cmd.key = none →
            exec .move s = .next (State.endedAtDispatch s cmd rest (bare .notFound cmd.key none))) ∧
          ∀ e : Entry,
            findEntry s.index cmd.key = some e →
              (e.cls = none →
                  exec .move s = .next (State.endedAtDispatch s cmd rest (bare .corrupt e.key (some e.gen)))) ∧
                (e.cls ≠ none →
                  State.dispatchClaims .move s s cmd rest (.moveRead e) (.read e.frame) (.read e.frame)))

/-- R39, R40: LIST returns the first 16 entries above the start key, in ascending order of key, with MORE when more were selected,
and makes no array operation. -/
def Obligations.ListReturnsPage : Prop :=
  ∀ (s : State) (cmd : Command) (rest : List Command),
    State.dispatchDue s 0x47 cmd rest →
      let selected := s.index.filter fun e => cmd.key.toNat < e.key.toNat
      exec .list s =
          .next
            (State.endedAtDispatch s cmd rest
              { outcome := .done
                flags := { more := decide (16 < selected.length) }
                payload := .list (selected.take 16) }) ∧
        (State.indexOk s → (selected.take 16).Pairwise fun d e => d.key.toNat < e.key.toNat)

/-- R96, R97, R114, R196: CONFIGURE CLASS refuses bad arguments (a class above 15, a yes/no byte that is neither H'00 nor H'01,
max units outside 1 to 1024) and a class that is SET or FAULTED; of an UNCONFIGURED class it claims the field strike of the
class's 32-byte region of frame 1, which waits while a background operation progresses. -/
def Obligations.ConfigureClassDispatch : Prop :=
  (∀ args : List Byte,
      let maxUnits := argNat16 args 7
      let inRange : Prop :=
        (∀ i : Nat, 1 ≤ i → i ≤ 6 → argByte args i = 0 ∨ argByte args i = 1) ∧ 1 ≤ maxUnits ∧ maxUnits ≤ 1024
      (16 ≤ (argByte args 0).toNat → configureArgs args = none) ∧
        (¬ inRange → configureArgs args = none) ∧
        ∀ k : ClassNo,
          (argByte args 0).toNat = k.val → inRange →
            configureArgs args =
              some
                (k,
                  { drawPermitted := argByte args 1 = 1, topupPermitted := argByte args 2 = 1
                    revokePermitted := argByte args 3 = 1, retireWhenSpent := argByte args 4 = 1
                    startHeld := argByte args 5 = 1, windowRequired := argByte args 6 = 1, maxUnits := maxUnits })) ∧
  ∀ (s : State) (cmd : Command) (rest : List Command),
    State.dispatchDue s 0x48 cmd rest →
      let ends (outcome : Code) (payload : Payload) : Prop :=
        exec .configureClass s =
          .next (State.endedAtDispatch s cmd rest { outcome := outcome, flags := {}, payload := payload })
      (configureArgs cmd.args = none →
          ((argByte cmd.args 0).toNat < 16 → ends .badArgument (.configure (some (argByte cmd.args 0)) none)) ∧
            (16 ≤ (argByte cmd.args 0).toNat → ends .badArgument (.configure none none))) ∧
        ∀ (k : ClassNo) (p : Policy),
          configureArgs cmd.args = some (k, p) →
            (∀ q : Policy,
                s.policies[k] = .set q →
                  ends .alreadySet (.configure (some (argByte cmd.args 0)) (some (.set q)))) ∧
              (s.policies[k] = .faulted →
                ends .alreadySet (.configure (some (argByte cmd.args 0)) (some .faulted))) ∧
              (s.policies[k] = .unconfigured →
                State.dispatchClaims .configureClass s s cmd rest (.configureStrike k p)
                  (.strike 1 (.field (32 * k.val) (policyBytes k p)))
                  (.strike 1 .foreground (.field (32 * k.val) (policyBytes k p))))

/-- R139, R140, R114: PURGE ORPHANS with the quarantine set empty reports at once; else it claims the strike of its lowest
member's marker bits 7 to 4 (the head of the list: the model keeps the set ascending, log entry 22). When a strike completes,
verified or failed, its frame leaves the quarantine set for the reclaim queue's tail and the next member's strike is claimed;
after the last the result is posted with the frames moved and the strikes failed, DEGRADED when any failed. -/
def Obligations.PurgeOrphansMovesMembers : Prop :=
  (∀ (f g : Frame) (frames : List Frame),
      (g ∈ insertFrame f frames ↔ g = f ∨ g ∈ frames) ∧
        (frames.Pairwise (· < ·) → (insertFrame f frames).Pairwise (· < ·))) ∧
  (∀ (s : State) (cmd : Command) (rest : List Command),
      State.dispatchDue s 0x49 cmd rest →
        (s.pools.quarantine = [] →
            exec .purgeOrphans s =
              .next
                (State.endedAtDispatch s cmd rest { outcome := .done, flags := {}, payload := .purge 0 0 })) ∧
          ∀ (f : Frame) (members : List Frame),
            s.pools.quarantine = f :: members →
              State.dispatchClaims .purgeOrphans s s cmd rest (.purgeStrike members 0 0)
                (.strike f (.bits [(0, 0xF0)])) (.strike f .foreground (.bits [(0, 0xF0)]))) ∧
  ∀ (s : State) (cmd : Command) (f : Frame) (members : List Frame) (moved failed : Nat) (what : Strike)
    (stuck : FrameBits),
    s.ctrl.op = some (.strike f .foreground what) → 3 ≤ f.val → s.mount.work = none →
      s.intake.restartPending = false → s.engine.job = some { cmd := cmd, step := .purgeStrike members moved failed } →
      let m := Memory.strike s.array f (Strike.intended what) stuck
      let failed' := if Strike.verifies what (Memory.image m f) then failed else failed + 1
      let t : State :=
        { s with
            array := m
            pools :=
              { s.pools with
                  quarantine := s.pools.quarantine.filter fun g => g ≠ f
                  reclaim := s.pools.reclaim ++ [f] } }
      (∀ (g : Frame) (more : List Frame),
          members = g :: more →
            exec (.strikeComplete stuck) s =
              .next
                (State.wentOn t cmd (.purgeStrike more (moved + 1) failed')
                  (.strike g .foreground (.bits [(0, 0xF0)])))) ∧
        (members = [] →
          exec (.strikeComplete stuck) s =
            .next
              (State.posted { t with ctrl := { s.ctrl with op := none } } cmd
                { outcome := .done, flags := { degraded := decide (failed' ≠ 0) }
                  payload := .purge (moved + 1) failed' }))

/-- R159, R160, R121: the dispatch of FORMAT in READY, UNFORMATTED or FAULTED cancels every waiting command in order, empties the
tables, clears the holds and the label, keeps the epoch, the bad-frame map and the mount report, abandons background work (a
progressing background ERASE or mark strike stops where it stands, a suspended erase is forgotten), and claims its first
operation. -/
def Obligations.FormatDispatch : Prop :=
  ∀ (cut : FrameBits) (s : State) (cmd : Command) (rest : List Command),
    s.engine.job = none → s.intake.restartPending = false → s.intake.waiting = cmd :: rest → cmd.code = 0x4A →
      (s.part = .ready ∨ s.part = .unformatted ∨ s.part = .faulted) →
      (∀ op : Op, s.ctrl.op = some op → Op.isBackground op = true) →
      let f : Formatting := { label := argWord cmd.args 0, erased := 0, newlyBad := 0, systemFailures := 0 }
      exec (.format cut) s =
        .next
          { s with
              part := .formatting
              intake :=
                { s.intake with
                    waiting := []
                    results :=
                      s.intake.results ++
                        rest.map fun c =>
                          { cmd := c, result := { outcome := .cancelled, flags := {}, payload := .nothing } } }
              index := []
              policies := Vector.replicate 16 .unconfigured
              engine :=
                { s.engine with
                    job :=
                      some { cmd := cmd, step := if s.part = .ready then .formatErase f else .formatMapRead f }
                    holds := Vector.replicate 16 false }
              pools := { free := [], reclaim := [], quarantine := [], bad := s.pools.bad }
              mount := { s.mount with label := none }
              array :=
                match s.ctrl.op with
                | none => s.array
                | some op => Op.cut s.array cut op
              ctrl :=
                { op :=
                    some
                      (if s.part = .ready then
                        .erase .foreground { frame := 0, attempt := .first, stage := .systemErase, progress := 0 } 0
                      else .read 2)
                  suspended := none
                  waiting := none } }

/-! ### Completions of READ and STRIKE -/

/-- R106, R109: no step changes the array but the completion of a STRIKE, the stages and the suspension of an ERASE, and what cuts
or abandons array work (power, RESETN, RESTART, the dispatch of FORMAT); the completion of a READ, and the walk of a mount, change
none of it. That what a stage had turned is written at its suspension, cut or completion, and not while it progresses, is the
model's choice, log entry 13. -/
def Obligations.ArrayChangesOnlyByArrayWork : Prop :=
  ∀ s t : State,
    step s = .next t → t.array ≠ s.array →
      s.ctrl.op ≠ none ∧
        ∃ c : Instr,
          s.pending.head? = some c ∧
            ((∃ bits : FrameBits,
                c = .strikeComplete bits ∨ c = .powerOn bits ∨ c = .powerLoss bits ∨ c = .resetnAssertion bits ∨
                  c = .restart bits ∨ c = .format bits) ∨
              ∃ (elapsed : Nat) (bits : FrameBits),
                c = .markerRetirement elapsed bits ∨ c = .bodyErase elapsed bits ∨ c = .markerErase elapsed bits ∨
                  c = .systemFrameErase elapsed bits ∨ c = .suspension elapsed bits)

/-- R36, R37, R32: LOOKUP's READ, sound, reports the record with its condition; unsound, it marks the entry corrupt and reports
CORRUPT with the key and the generation read. The window bytes of a record without a window are free, the model's choice of log
entry 8, and the counter of free values is the model's own. -/
def Obligations.LookupReadReports : Prop :=
  ∀ (s : State) (cmd : Command) (snap : Snapshot) (e : Entry) (f : Frame),
    s.ctrl.op = some (.read f) → s.mount.work = none → s.engine.job = some { cmd := cmd, step := .lookupRead snap e } →
      s.intake.restartPending = false →
      let img := Memory.image s.array f
      let g := Image.grant img
      let idle : State := { s with ctrl := { s.ctrl with op := none } }
      (Image.soundFor img e = true →
          exec .readComplete s =
            .next
              (State.posted { idle with freeUses := s.freeUses + 1 } cmd
                { outcome := .done
                  flags := { skewed := decide (g.countA ≠ g.countB) }
                  payload :=
                    .lookup e.key (some e.gen)
                      (some
                        { frame := f, cls := g.cls, allowance := g.allowance, window := g.window
                          absentWindow :=
                            { opens := Config.absentOpensField s.freeUses
                              closes := Config.absentClosesField s.freeUses }
                          topups := g.topups, countA := g.countA, countB := g.countB
                          remaining := g.allowance - max g.countA g.countB
                          condition := grantCondition snap.policies[g.cls] snap.holds[g.cls] snap.epoch g
                          label := g.label }) })) ∧
        (Image.soundFor img e = false →
          exec .readComplete s =
            .next
              (State.posted
                { idle with
                    index :=
                      s.index.map fun d =>
                        if d.key = e.key then { d with cls := none, gen := Image.gen img } else d }
                cmd
                { outcome := .corrupt, flags := {}, payload := .lookup e.key (some (Image.gen img)) none }))

/-- R21: the condition of a sound reading is the first case of the table that matches. -/
def Obligations.ConditionIsFirstMatch : Prop :=
  ∀ (status : ClassStatus) (held : Bool) (epoch : Option Word) (g : Grant),
    let c := grantCondition status held epoch g
    let noPolicy : Prop := status = .unconfigured ∨ status = .faulted
    let unsetWindow : Prop := g.window ≠ none ∧ epoch = none
    let early : Prop := ∃ w e, g.window = some w ∧ epoch = some e ∧ e.toNat < w.opens.toNat
    let lapsed : Prop := ∃ w e, g.window = some w ∧ epoch = some e ∧ w.closes.toNat ≤ e.toNat
    let spent : Prop := g.allowance - max g.countA g.countB = 0
    (c = .policyFault ↔ noPolicy) ∧
      (c = .held ↔ ¬ noPolicy ∧ held = true) ∧
      (c = .epochUnset ↔ ¬ noPolicy ∧ held = false ∧ unsetWindow) ∧
      (c = .early ↔ ¬ noPolicy ∧ held = false ∧ early) ∧
      (c = .lapsed ↔ ¬ noPolicy ∧ held = false ∧ ¬ early ∧ lapsed) ∧
      (c = .spent ↔ ¬ noPolicy ∧ held = false ∧ ¬ unsetWindow ∧ ¬ early ∧ ¬ lapsed ∧ spent) ∧
      (c = .isOpen ↔ ¬ noPolicy ∧ held = false ∧ ¬ unsetWindow ∧ ¬ early ∧ ¬ lapsed ∧ ¬ spent)

/-- R47 to R50, R52: DRAW's READ: the checks in their order, each ending the DRAW with no mark struck, and when all pass the
strike of copy A from its own count up to the target. -/
def Obligations.DrawReadChecksInOrder : Prop :=
  ∀ (s : State) (cmd : Command) (snap : Snapshot) (e : Entry) (f : Frame) (units : Nat) (mode : DrawMode),
    s.ctrl.op = some (.read f) → s.mount.work = none → s.engine.job = some { cmd := cmd, step := .drawRead snap e } →
      s.intake.restartPending = false → drawArgs cmd.args = some (units, mode) →
      let img := Memory.image s.array f
      let g := Image.grant img
      let c := max g.countA g.countB
      let r := g.allowance - c
      let condition := grantCondition snap.policies[g.cls] snap.holds[g.cls] snap.epoch g
      let idle : State := { s with ctrl := { s.ctrl with op := none } }
      let ends (outcome : Code) : Prop :=
        exec .readComplete s =
          .next
            (State.posted idle cmd
              { outcome := outcome, flags := {}, payload := .draw e.key (some e.gen) 0 (some r) })
      let strikes (d : Nat) (p : Policy) : Prop :=
        exec .readComplete s =
          .next
            (State.wentOn s cmd (.drawStrikeA { grant := g, units := d, retire := p.retireWhenSpent } e)
              (.strike f .foreground (tallyStrike tallyA g.countA (c + d))))
      (Image.soundFor img e = false →
          exec .readComplete s =
            .next
              (State.posted
                { idle with
                    index :=
                      s.index.map fun d =>
                        if d.key = e.key then { d with cls := none, gen := Image.gen img } else d }
                cmd
                { outcome := .corrupt, flags := {}, payload := .draw e.key (some (Image.gen img)) 0 none })) ∧
        (Image.soundFor img e = true →
          (condition ≠ .isOpen → ends condition) ∧
            ∀ p : Policy,
              condition = .isOpen → snap.policies[g.cls] = .set p →
                (p.drawPermitted = false → ends .notPermitted) ∧
                  (p.drawPermitted = true → p.maxUnits < units → ends .overLimit) ∧
                  (p.drawPermitted = true → units ≤ p.maxUnits →
                    (units ≤ r → strikes units p) ∧
                      (r < units → mode = .exact → ends .short) ∧
                      (r < units → mode = .upto → strikes r p)))

/-- R52 to R56, R58, R59, R32: the completions of DRAW's strikes on a grant frame: copy B is struck whether or not copy A
verified; both failed, the frame is read back, and that READ ends the DRAW with ARRAY_FAULT and DEGRADED: sound, with the count
read back less c drawn and the remaining units read back; unsound, the entry marked corrupt, with d drawn. SKEW_REPAIRED then
follows the lagging copy's count as R56 has it and not R53, the model's choice, log entry 32. Else the DRAW is DONE with d drawn
and the allowance less t remaining, DEGRADED when one failed, after the RETIRED strike when nothing remains and the class retires
when spent, RETIRED and, after the fallback of R59, DEGRADED too. That the RETIRED strike intends bits 5 and 4 whatever the marker
read is the model's inference, log entry 17. -/
def Obligations.DrawStrikesComplete : Prop :=
  (∀ (s : State) (cmd : Command) (d : Drawing) (e : Entry) (f : Frame),
    s.ctrl.op = some (.read f) → s.mount.work = none → s.intake.restartPending = false →
      s.engine.job = some { cmd := cmd, step := .drawReadBack d e } →
      let img := Memory.image s.array f
      let g := Image.grant img
      let c := max d.grant.countA d.grant.countB
      let idle : State := { s with ctrl := { s.ctrl with op := none } }
      (Image.soundFor img e = true →
          exec .readComplete s =
            .next
              (State.posted idle cmd
                { outcome := .arrayFault
                  flags :=
                    { degraded := true
                      skewRepaired :=
                        (decide (d.grant.countA < c) && decide (c ≤ g.countA)) ||
                          (decide (d.grant.countB < c) && decide (c ≤ g.countB)) }
                  payload :=
                    .draw e.key (some e.gen) (max g.countA g.countB - c)
                      (some (g.allowance - max g.countA g.countB)) })) ∧
        (Image.soundFor img e = false →
          exec .readComplete s =
            .next
              (State.posted
                { idle with
                    index :=
                      s.index.map fun d' =>
                        if d'.key = e.key then { d' with cls := none, gen := Image.gen img } else d' }
                cmd
                { outcome := .arrayFault, flags := { degraded := true }
                  payload := .draw e.key (some (Image.gen img)) d.units none }))) ∧
  ∀ (s : State) (cmd : Command) (d : Drawing) (e : Entry) (f : Frame) (what : Strike) (stuck : FrameBits),
    s.ctrl.op = some (.strike f .foreground what) → 3 ≤ f.val → s.mount.work = none →
      s.intake.restartPending = false →
      let m := Memory.strike s.array f (Strike.intended what) stuck
      let verified := Strike.verifies what (Memory.image m f)
      let c := max d.grant.countA d.grant.countB
      let t := c + d.units
      let struck : State := { s with array := m }
      (s.engine.job = some { cmd := cmd, step := .drawStrikeA d e } →
          exec (.strikeComplete stuck) s =
            .next
              (State.wentOn struck cmd (.drawStrikeB d e verified)
                (.strike f .foreground (tallyStrike tallyB d.grant.countB t)))) ∧
        ∀ verifiedA : Bool,
          s.engine.job = some { cmd := cmd, step := .drawStrikeB d e verifiedA } →
            let flags : Flags :=
              { degraded := !(verifiedA && verified)
                skewRepaired :=
                  (decide (d.grant.countA < c) && verifiedA) || (decide (d.grant.countB < c) && verified) }
            (verifiedA = false → verified = false →
                exec (.strikeComplete stuck) s = .next (State.wentOn struck cmd (.drawReadBack d e) (.read f))) ∧
              (verifiedA = true ∨ verified = true →
                (d.grant.allowance - t ≠ 0 ∨ d.retire = false →
                    exec (.strikeComplete stuck) s =
                      .next
                        (State.posted { struck with ctrl := { s.ctrl with op := none } } cmd
                          { outcome := .done, flags := flags
                            payload :=
                              .draw d.grant.key (some d.grant.gen) d.units (some (d.grant.allowance - t)) })) ∧
                  (d.grant.allowance - t = 0 → d.retire = true →
                    let retired (degraded : Bool) : Result :=
                      { outcome := .done, flags := { flags with retired := true, degraded := degraded }
                        payload := .draw d.grant.key (some d.grant.gen) d.units (some 0) }
                    exec (.strikeComplete stuck) s =
                      .next
                        (State.wentOn struck cmd
                          (.retiredStrike
                            { key := e.key, retired := retired flags.degraded, fallback := retired true
                              lost := retired true })
                          (.strike f .foreground (.bits [(0, 0x30)])))))

/-- R110, R120, R106, R2: a bit strike intends the bits given and verifies exactly when each of them reads struck; a field strike
intends exactly the bits that are 0 in the value and verifies exactly when its whole area reads as the value. The completion of a
STRIKE turns intended bits of its frame from standing to struck, but for those that stay standing, and no other bit of the array,
whatever its claimant does next; a STRIKE cut by power-on does the same, any subset of its intended bits being one that a cut may
leave. -/
def Obligations.StrikeTurnsOnlyIntendedBits : Prop :=
  (∀ (bits : FrameBits) (start : Nat) (value : List Byte) (img : Image),
      Strike.intended (.bits bits) = bits ∧
        (Strike.verifies (.bits bits) img = true ↔
          ∀ p ∈ bits, ∀ i < 8, p.2.getLsbD i = true → (img p.1).getLsbD i = false) ∧
        (∀ o i : Nat,
          i < 8 →
            ((∃ p ∈ Strike.intended (.field start value), p.1 = o ∧ p.2.getLsbD i = true) ↔
              ∃ (n : Nat) (h : n < value.length), o = start + n ∧ value[n].getLsbD i = false)) ∧
        (Strike.verifies (.field start value) img = true ↔
          ∀ (n : Nat) (h : n < value.length), img (start + n) = value[n])) ∧
  (∀ (m : Memory) (f : Frame) (o : Nat), Memory.image m f o = Memory.read m (512 * f.val + o)) ∧
  (∀ (k : Nat) (b : Byte) (rest : FrameBits) (o : Nat),
      FrameBits.bitsAt [] o = 0 ∧
        FrameBits.bitsAt ((k, b) :: rest) o = if o = k then b else FrameBits.bitsAt rest o) ∧
  ∀ (s : State) (f : Frame) (claimant : Claimant) (what : Strike) (left : FrameBits) (c : Instr),
    State.arrayOk s → s.ctrl.op = some (.strike f claimant what) → (c = .strikeComplete left ∨ c = .powerOn left) →
      ∃ t : State,
        exec c s = .next t ∧
          (∀ a : Nat, (∀ o < 512, a ≠ 512 * f.val + o) → Memory.read t.array a = Memory.read s.array a) ∧
          ∀ o i : Nat,
            o < 512 → i < 8 →
              ((Memory.read t.array (512 * f.val + o)).getLsbD i = true ↔
                (Memory.read s.array (512 * f.val + o)).getLsbD i = true ∧
                  ¬ ((∃ p ∈ Strike.intended what, p.1 = o ∧ p.2.getLsbD i = true) ∧
                    (FrameBits.bitsAt left o).getLsbD i = false))

/-- R66, R67, R25, R28, R64, R71, R72, R78, R134, R135: an insertion keeps the index in ascending order of key; the strikes of a
new record: the OPENING strike verified leads to the strike of header and body, that one to the LIVE strike of bit 6; the LIVE
strike verified, an ISSUE inserts a live entry of generation 0, ends its hold and posts its result, and a relocation strikes its
old frame MOVED. Any of the three failed, the frame's mark in frame 2 is struck and nothing is inserted; at that strike's
completion the frame leaves the hold for the bad-frame map or the quarantine set and a further take is made, from an empty pool
too (R131), or after the third failed frame the command ends with ARRAY_FAULT. The places of header and body are the model's
choice (log entry 6). -/
def Obligations.NewRecordStrikesComplete : Prop :=
  (∀ (e : Entry) (index : List Entry),
      (∀ d : Entry, d ∈ insertEntry e index ↔ d = e ∨ d ∈ index) ∧
        (index.Pairwise (fun c d => c.key.toNat < d.key.toNat) → (∀ d ∈ index, d.key ≠ e.key) →
          (insertEntry e index).Pairwise fun c d => c.key.toNat < d.key.toNat)) ∧
  ∀ (s : State) (cmd : Command) (w : Writing) (what : Strike) (stuck : FrameBits),
    s.mount.work = none → s.intake.restartPending = false →
      (∀ f : Frame,
          s.ctrl.op = some (.strike f .foreground what) → 3 ≤ f.val →
            let m := Memory.strike s.array f (Strike.intended what) stuck
            let struck : State := { s with array := m }
            let fails : Prop :=
              Strike.verifies what (Memory.image m f) = false →
                exec (.strikeComplete stuck) s =
                  .next
                    (State.wentOn struck cmd (.newFrameMark f w)
                      (.strike 2 .foreground (.bits [(f.val / 8, (0x80 : Byte) >>> (f.val % 8))])))
            let leadsTo (step : EngineStep) (op : Op) : Prop :=
              Strike.verifies what (Memory.image m f) = true →
                exec (.strikeComplete stuck) s = .next (State.wentOn struck cmd step op)
            (s.engine.job = some { cmd := cmd, step := .openingStrike w } →
                fails ∧
                  leadsTo (.bodyStrike w) (.strike f .foreground (.field recordStart (recordBytes w.record)))) ∧
              (s.engine.job = some { cmd := cmd, step := .bodyStrike w } →
                fails ∧ leadsTo (.liveStrike w) (.strike f .foreground (.bits [(0, 0x40)]))) ∧
              (s.engine.job = some { cmd := cmd, step := .liveStrike w } →
                fails ∧
                  (∀ o : OldGrant,
                    w.old = some o →
                      leadsTo (.movedStrike w o f)
                        (.strike o.frame .foreground (.bits [(0, transitionBits .moved o.marker)]))) ∧
                  (w.old = none → Strike.verifies what (Memory.image m f) = true →
                    exec (.strikeComplete stuck) s =
                      .next
                        (State.posted
                          { struck with
                              ctrl := { s.ctrl with op := none }
                              engine := { s.engine with held := none }
                              index :=
                                insertEntry { key := w.record.key, frame := f, gen := 0, cls := some w.record.cls }
                                  s.index }
                          cmd
                          { outcome := .done, flags := {}
                            payload :=
                              .issue w.record.key (some f) (some w.record.gen) (some w.record.allowance)
                                w.failed })))) ∧
        ∀ f : Frame,
          s.ctrl.op = some (.strike 2 .foreground what) → s.engine.job = some { cmd := cmd, step := .newFrameMark f w } →
            let m := Memory.strike s.array 2 (Strike.intended what) stuck
            let verified := Strike.verifies what (Memory.image m 2)
            let released : State :=
              { s with
                  array := m
                  link := { s.link with faultEvent := s.link.faultEvent || !verified }
                  engine := { s.engine with held := none }
                  pools :=
                    { s.pools with
                        bad := if verified then insertFrame f s.pools.bad else s.pools.bad
                        quarantine :=
                          if verified then s.pools.quarantine else insertFrame f s.pools.quarantine } }
            (w.failed < 2 →
                State.takesFrame (.strikeComplete stuck) s
                  { released with ctrl := { s.ctrl with op := none } } cmd { w with failed := w.failed + 1 }) ∧
              (2 ≤ w.failed →
                exec (.strikeComplete stuck) s =
                  .next
                    (State.posted { released with ctrl := { s.ctrl with op := none } } cmd
                      { outcome := .arrayFault, flags := {}
                        payload :=
                          match w.old with
                          | none => .issue w.record.key none none none (w.failed + 1)
                          | some o =>
                            .relocation w.record.key (some o.frame) (some o.gen) none (some o.remaining)
                              (some o.topups) (w.failed + 1) }))

/-- R75, R77, R68, R74, R76, R80: TOPUP's and MOVE's READ: unsound, the entry is marked corrupt and the command ends CORRUPT;
sound, the command's own checks in order, each ending it with the old grant reported; when they pass, the take of a frame for the
new record and its OPENING strike, with the free pool empty by demand reclaim (R126, R131). -/
def Obligations.RelocationReadChecks : Prop :=
  ∀ (s : State) (cmd : Command) (e : Entry) (f : Frame),
    s.ctrl.op = some (.read f) → s.mount.work = none → s.intake.restartPending = false →
      let img := Memory.image s.array f
      let g := Image.grant img
      let r := g.allowance - max g.countA g.countB
      let idle : State := { s with ctrl := { s.ctrl with op := none } }
      let corrupt : Prop :=
        exec .readComplete s =
          .next
            (State.posted
              { idle with
                  index :=
                    s.index.map fun d =>
                      if d.key = e.key then { d with cls := none, gen := Image.gen img } else d }
              cmd
              { outcome := .corrupt, flags := {}
                payload := .relocation e.key none (some (Image.gen img)) none none none 0 })
      let ends (outcome : Code) : Prop :=
        exec .readComplete s =
          .next
            (State.posted idle cmd
              { outcome := outcome, flags := {}
                payload := .relocation e.key (some f) (some e.gen) none (some r) (some g.topups) 0 })
      let takes (new : NewRecord) : Prop :=
        State.takesFrame .readComplete s idle cmd
          { record := new, failed := 0
            old := some { frame := f, marker := g.marker, gen := g.gen, remaining := r, topups := g.topups } }
      (∀ (snap : Snapshot) (units : Nat) (window : Option Window),
          s.engine.job = some { cmd := cmd, step := .topupRead snap e } → topupArgs cmd.args = some (units, window) →
            (Image.soundFor img e = false → corrupt) ∧
              (Image.soundFor img e = true →
                ((snap.policies[g.cls] = .unconfigured ∨ snap.policies[g.cls] = .faulted) → ends .notPermitted) ∧
                  ∀ p : Policy,
                    snap.policies[g.cls] = .set p →
                      (p.topupPermitted = false → ends .notPermitted) ∧
                        (p.topupPermitted = true → (g.topups = 255 ∨ 1024 < r + units) → ends .limit) ∧
                        (p.topupPermitted = true → g.topups ≠ 255 → r + units ≤ 1024 →
                          takes
                            { key := g.key, gen := g.gen + 1, cls := g.cls, allowance := r + units
                              window := if window = none then g.window else window
                              label := g.label, topups := g.topups + 1 }))) ∧
        (s.engine.job = some { cmd := cmd, step := .moveRead e } →
          (Image.soundFor img e = false → corrupt) ∧
            (Image.soundFor img e = true →
              (r = 0 → ends .spent) ∧
                (1 ≤ r →
                  takes
                    { key := g.key, gen := g.gen + 1, cls := g.cls, allowance := r, window := g.window
                      label := g.label, topups := g.topups })))

/-- R30, R78, R79, R86: when a relocation's MOVED strike completes the entry names the new frame and generation, verified or
failed; verified, the old frame joins the reclaim queue's tail and the result is posted; failed, the old frame is held for the
fallback ERASE. -/
def Obligations.RelocationRepointsEntry : Prop :=
  ∀ (s : State) (cmd : Command) (w : Writing) (o : OldGrant) (new f : Frame) (what : Strike) (stuck : FrameBits),
    s.ctrl.op = some (.strike f .foreground what) → 3 ≤ f.val → s.mount.work = none →
      s.intake.restartPending = false → w.old = some o → o.frame = f →
      s.engine.job = some { cmd := cmd, step := .movedStrike w o new } →
      let m := Memory.strike s.array f (Strike.intended what) stuck
      let result (degraded : Bool) : Result :=
        { outcome := .done, flags := { degraded := degraded }
          payload :=
            .relocation w.record.key (some new) (some w.record.gen) (some w.record.allowance)
              (some w.record.allowance) (some w.record.topups) w.failed }
      let repointed : List Entry :=
        s.index.map fun e =>
          if e.key = w.record.key then { e with frame := new, gen := w.record.gen } else e
      (Strike.verifies what (Memory.image m f) = true →
          exec (.strikeComplete stuck) s =
            .next
              (State.posted
                { s with
                    array := m
                    ctrl := { s.ctrl with op := none }
                    engine := { s.engine with held := none }
                    index := repointed
                    pools := { s.pools with reclaim := s.pools.reclaim ++ [f] } }
                cmd (result false))) ∧
        (Strike.verifies what (Memory.image m f) = false →
          exec (.strikeComplete stuck) s =
            .next
              { s with
                  array := m
                  index := repointed
                  engine :=
                    { s.engine with
                        job := some { cmd := cmd, step := .fallbackErase (result true) (result true) }
                        held := some f }
                  ctrl :=
                    { s.ctrl with
                        op :=
                          some
                            (.erase .foreground
                              { frame := f, attempt := .first, stage := .markerRetirement, progress := 0 } 0)
                        waiting := none } })

/-- R83, R84, R85, R86, R88: REVOKE's READ: on the corrupt path no policy is consulted; on the sound path a class that is not SET,
or whose policy does not permit it, ends the REVOKE with NOT_PERMITTED. The RETIRED strike intends the bits of 7 to 4 that stand;
with none the entry is removed and the frame joins the reclaim queue's tail at once. The result after a verified strike is DONE;
after the fallback DONE with DEGRADED; after a fallback whose mark strike failed ARRAY_FAULT with DEGRADED. -/
def Obligations.RevokeReadTakesPath : Prop :=
  ∀ (s : State) (cmd : Command) (snap : Snapshot) (e : Entry) (f : Frame),
    s.ctrl.op = some (.read f) → s.mount.work = none → s.intake.restartPending = false →
      s.engine.job = some { cmd := cmd, step := .revokeRead snap e } →
      let img := Memory.image s.array f
      let cls := (Image.grant img).cls
      let idle : State := { s with ctrl := { s.ctrl with op := none } }
      let bits : Byte := img 0 &&& 0xF0
      let ended (gen : Gen) (outcome : Code) (corrupt degraded : Bool) : Result :=
        { outcome := outcome, flags := { corrupt := corrupt, degraded := degraded }
          payload := .revoke e.key (some f) (some gen) }
      let marked : List Entry :=
        s.index.map fun d => if d.key = e.key then { d with cls := none, gen := Image.gen img } else d
      let retires (gen : Gen) (corrupt : Bool) (index : List Entry) : Prop :=
        (bits ≠ 0 →
            exec .readComplete s =
              .next
                (State.wentOn { s with index := index } cmd
                  (.retiredStrike
                    { key := e.key, retired := ended gen .done corrupt false
                      fallback := ended gen .done corrupt true, lost := ended gen .arrayFault corrupt true })
                  (.strike f .foreground (.bits [(0, bits)])))) ∧
          (bits = 0 →
            exec .readComplete s =
              .next
                (State.posted
                  { idle with
                      index := index.filter fun d => d.key ≠ e.key
                      pools := { s.pools with reclaim := s.pools.reclaim ++ [f] } }
                  cmd (ended gen .done corrupt false)))
      (e.cls = none → retires e.gen true s.index) ∧
        (e.cls ≠ none → Image.soundFor img e = false → retires (Image.gen img) true marked) ∧
        (e.cls ≠ none → Image.soundFor img e = true →
          (∀ p : Policy, snap.policies[cls] = .set p → p.revokePermitted = true → retires e.gen false s.index) ∧
            ((∀ p : Policy, snap.policies[cls] = .set p → p.revokePermitted = false) →
              exec .readComplete s =
                .next
                  (State.posted idle cmd
                    { outcome := .notPermitted, flags := {}
                      payload := .revoke e.key (some f) (some e.gen) })))

/-- R31, R85, R58, R59, R86, R134, R135, R136: when a RETIRED strike completes the entry is removed, verified or failed; verified,
the frame joins the reclaim queue's tail and the result is posted; failed, the frame is held for the fallback ERASE. That ERASE,
of any command, verified blank puts the frame at the free pool's tail and posts the fallback's result; failed at its retry, at
stage 1 or at blank verify, the frame's mark is struck, and at that strike's completion the frame goes to the bad-frame map with
the same result, or after a failure to the quarantine set with FAULT_EVENT and the result for that case. -/
def Obligations.RetiredStrikeAndFallback : Prop :=
  (∀ (s : State) (cmd : Command) (ending : Ending) (f : Frame) (what : Strike) (stuck : FrameBits),
    s.ctrl.op = some (.strike f .foreground what) → 3 ≤ f.val → s.mount.work = none →
      s.intake.restartPending = false → s.engine.job = some { cmd := cmd, step := .retiredStrike ending } →
      let m := Memory.strike s.array f (Strike.intended what) stuck
      let remaining : List Entry := s.index.filter fun e => e.key ≠ ending.key
      (Strike.verifies what (Memory.image m f) = true →
          exec (.strikeComplete stuck) s =
            .next
              (State.posted
                { s with
                    array := m
                    ctrl := { s.ctrl with op := none }
                    index := remaining
                    pools := { s.pools with reclaim := s.pools.reclaim ++ [f] } }
                cmd ending.retired)) ∧
        (Strike.verifies what (Memory.image m f) = false →
          exec (.strikeComplete stuck) s =
            .next
              { s with
                  array := m
                  index := remaining
                  engine :=
                    { s.engine with
                        job := some { cmd := cmd, step := .fallbackErase ending.fallback ending.lost }
                        held := some f }
                  ctrl :=
                    { s.ctrl with
                        op :=
                          some
                            (.erase .foreground
                              { frame := f, attempt := .first, stage := .markerRetirement, progress := 0 } 0)
                        waiting := none } })) ∧
  ∀ (s : State) (cmd : Command) (fallback lost : Result),
    s.mount.work = none → s.intake.restartPending = false →
      (∀ (e : Erase) (since : Nat),
          s.ctrl.op = some (.erase .foreground e since) → e.stage = .blankVerify → 3 ≤ e.frame.val →
            s.engine.job = some { cmd := cmd, step := .fallbackErase fallback lost } →
            (Image.blank (Memory.image s.array e.frame) = true →
                exec .blankVerify s =
                  .next
                    (State.posted
                      { s with
                          ctrl := { s.ctrl with op := none }
                          engine := { s.engine with held := none }
                          pools := { s.pools with free := s.pools.free ++ [e.frame] } }
                      cmd fallback))) ∧
        (∀ (e : Erase) (c : Instr) (t : State),
          State.attemptFails s .foreground e c t → e.attempt = .retry → 3 ≤ e.frame.val →
            s.engine.job = some { cmd := cmd, step := .fallbackErase fallback lost } →
            exec c s =
              .next
                (State.wentOn t cmd (.fallbackMark e.frame fallback lost)
                  (.strike 2 .foreground (.bits [(e.frame.val / 8, (0x80 : Byte) >>> (e.frame.val % 8))])))) ∧
        ∀ (f : Frame) (what : Strike) (stuck : FrameBits),
          s.ctrl.op = some (.strike 2 .foreground what) →
            s.engine.job = some { cmd := cmd, step := .fallbackMark f fallback lost } →
            let m := Memory.strike s.array 2 (Strike.intended what) stuck
            let verified := Strike.verifies what (Memory.image m 2)
            exec (.strikeComplete stuck) s =
              .next
                (State.posted
                  { s with
                      array := m
                      ctrl := { s.ctrl with op := none }
                      link := { s.link with faultEvent := s.link.faultEvent || !verified }
                      engine := { s.engine with held := none }
                      pools :=
                        { s.pools with
                            bad := if verified then insertFrame f s.pools.bad else s.pools.bad
                            quarantine :=
                              if verified then s.pools.quarantine else insertFrame f s.pools.quarantine } }
                  cmd (if verified then fallback else lost))

/-- R97, R98, R136: the completion of a CONFIGURE CLASS strike: verified, the class is SET with the record and the result is DONE;
failed, FAULT_EVENT is set and frame 1 is read. At that READ's completion the class takes the status and record the image gives,
and the result is ARRAY_FAULT with them. -/
def Obligations.ConfigureStrikeCompletes : Prop :=
  (∀ (s : State) (cmd : Command) (k : ClassNo) (p : Policy) (what : Strike) (stuck : FrameBits),
      s.ctrl.op = some (.strike 1 .foreground what) → s.mount.work = none → s.intake.restartPending = false →
        s.engine.job = some { cmd := cmd, step := .configureStrike k p } →
        let m := Memory.strike s.array 1 (Strike.intended what) stuck
        (Strike.verifies what (Memory.image m 1) = true →
            exec (.strikeComplete stuck) s =
              .next
                (State.posted
                  { s with
                      array := m
                      ctrl := { s.ctrl with op := none }
                      policies := setClass s.policies k (.set p) }
                  cmd
                  { outcome := .done, flags := {}
                    payload := .configure (some (BitVec.ofNat 8 k.val)) (some (.set p)) })) ∧
          (Strike.verifies what (Memory.image m 1) = false →
            exec (.strikeComplete stuck) s =
              .next
                (State.wentOn { s with array := m, link := { s.link with faultEvent := true } } cmd (.configureRead k)
                  (.read 1)))) ∧
  ∀ (s : State) (cmd : Command) (k : ClassNo),
    s.ctrl.op = some (.read 1) → s.mount.work = none → s.intake.restartPending = false →
      s.engine.job = some { cmd := cmd, step := .configureRead k } →
      let status := Image.classStatus (Memory.image s.array 1) k
      exec .readComplete s =
        .next
          (State.posted { s with ctrl := { s.ctrl with op := none }, policies := setClass s.policies k status } cmd
            { outcome := .arrayFault, flags := {}
              payload := .configure (some (BitVec.ofNat 8 k.val)) (some status) })

/-- R146, R144, R145, R147, R148, R101, R162: a mount whose READ of frame 0 finds it blank ends UNFORMATTED, and one that finds it
neither blank nor valid ends FAULTED, MOUNTED set; the mount that follows a FORMAT then posts FORMAT's result, ARRAY_FAULT with
the state reached. A valid record gives the store label and the READ of frame 2, that one the working copy of the bad-frame map
and the READ of frame 1, that one the statuses and the holds, and the scan begins at frame 3. That the bad-frame map's working
copy is empty after a mount that ends here follows R141 (log entry 15). With no frame to scan the candidates are resolved (log
entries 16 and 33). -/
def Obligations.MountReadsSystemFrames : Prop :=
  (∀ (s : State) (w : MountWork),
      s.ctrl.op = some (.read 0) → s.mount.work = some w → w.step = .readFormat →
        let img := Memory.image s.array 0
        let ended (part : PartState) : State :=
          { s with
              part := part
              ctrl := { s.ctrl with op := none }
              link := { s.link with mounted := true }
              mount := { s.mount with work := none }
              pools := { s.pools with bad := [] } }
        let ends (part : PartState) : Prop :=
          (s.engine.job = none → exec .readComplete s = .next (ended part)) ∧
            ∀ (cmd : Command) (f : Formatting),
              s.engine.job = some { cmd := cmd, step := .formatMount f } → s.intake.restartPending = false →
                exec .readComplete s =
                  .next
                    (State.posted (ended part) cmd
                      { outcome := .arrayFault, flags := {}
                        payload := .format part f.label f.erased f.newlyBad f.systemFailures })
        (Image.blank img = true → ends .unformatted) ∧
          (Image.blank img = false → Image.formatValid img = false → ends .faulted) ∧
          (Image.blank img = false → Image.formatValid img = true →
            State.mountWaitsFor .readComplete s
              { s with mount := { s.mount with label := some (Image.storeLabel img) } } { w with step := .readMap }
              (.read 2))) ∧
  (∀ (s : State) (w : MountWork),
      s.ctrl.op = some (.read 2) → s.mount.work = some w → w.step = .readMap →
        ∃ bad : List Frame,
          (∀ f : Frame, f ∈ bad ↔ 3 ≤ f.val ∧ markStruck (Memory.image s.array 2) 0 f.val = true) ∧
            bad.Pairwise (· < ·) ∧
            State.mountWaitsFor .readComplete s { s with pools := { s.pools with bad := bad } }
              { w with step := .readPolicies } (.read 1)) ∧
  ∀ (s : State) (w : MountWork),
    s.ctrl.op = some (.read 1) → s.mount.work = some w → w.step = .readPolicies →
      ∃ (policies : Vector ClassStatus 16) (holds : Vector Bool 16),
        (∀ k : ClassNo,
            policies[k] = Image.classStatus (Memory.image s.array 1) k ∧
              (holds[k] = true ↔ ∃ p : Policy, policies[k] = .set p ∧ p.startHeld = true)) ∧
          State.mountScans .readComplete s
            { s with
                policies := policies
                engine := { s.engine with holds := holds }
                ctrl := { s.ctrl with op := none } }
            w 3

/-- R149, R150, R151, R153, R154, R155, R157: how a frame is classified; the next frame of the scan is the first that is not bad;
the candidates are those of the scan in its order. The scan's READ of a frame: a marker with earlier bits standing is counted and
its regularising strike claimed, the classification read kept; an abandoned frame is counted and its retiring strike of bits 6, 5
and 4 claimed; any other frame is noted with its placement and its counter, and the READ of the next frame that is not bad is
claimed, or after the last one the candidates are resolved, in an order among keys that is the model's inference (log entry 16).
That no READ precedes a loser's MOVED strike is the model's choice (log entry 33). -/
def Obligations.ScanClassifiesFrame : Prop :=
  (∀ (f : Frame) (img : Image),
      let phase := phaseOf (img 0)
      let found := classify f img
      (phase = .blank → (∀ o < 512, img o = 0xFF) → found = .free) ∧
        (phase = .blank → ¬ (∀ o < 512, img o = 0xFF) → found = .dirty) ∧ (phase = .opening → found = .abandoned) ∧
        (phase = .live → Image.keyPairConsistent img = false → found = .orphan) ∧
        (phase = .live → Image.keyPairConsistent img = true →
          found =
            .candidate
              { frame := f, marker := img 0, key := Image.key img, gen := Image.gen img
                sound :=
                  if Image.sound img then
                    some
                      ((Image.grant img).cls,
                        (Image.grant img).allowance - max (Image.grant img).countA (Image.grant img).countB)
                  else none }) ∧
        (phase = .moved → found = .superseded) ∧ (phase = .retired → found = .ended)) ∧
  (∀ (bad : List Frame) (n : Nat),
      (∀ f : Frame,
          nextFrame bad 2048 n = some f ↔
            n ≤ f.val ∧ f ∉ bad ∧ ∀ g : Frame, n ≤ g.val → g < f → g ∈ bad) ∧
        (nextFrame bad 2048 n = none ↔ ∀ g : Frame, n ≤ g.val → g ∈ bad)) ∧
  (∀ (step : MountStep) (scanned : List (Frame × Placement)) (f : Frame) (p : Placement),
      let candidates (scanned : List (Frame × Placement)) : List Candidate :=
        MountWork.candidates { step := step, scanned := scanned }
      candidates [] = [] ∧
        (∀ c : Candidate, p = .candidate c → candidates ((f, p) :: scanned) = c :: candidates scanned) ∧
        ((∀ c : Candidate, p ≠ .candidate c) → candidates ((f, p) :: scanned) = candidates scanned)) ∧
  ∀ (s : State) (w : MountWork) (f : Frame),
    s.ctrl.op = some (.read f) → s.mount.work = some w → w.step = .scanRead →
      let img := Memory.image s.array f
      let phase := phaseOf (img 0)
      let bits := transitionBits phase (img 0)
      let report : MountReport :=
        { s.mount.report with
            irregular := s.mount.report.irregular + (if img 0 = cleanMarker phase then 0 else 1) }
      let counted (r : MountReport) : State :=
        { s with mount := { s.mount with report := r }, ctrl := { s.ctrl with op := none } }
      let placed (r : MountReport) (p : Placement) : Prop :=
        State.mountScans .readComplete s (counted r) { w with scanned := w.scanned ++ [(f, p)] } (f.val + 1)
      (phase ≠ .blank → bits ≠ 0 →
          State.mountWaitsFor .readComplete s (counted report) { w with step := .regularise (classify f img) }
            (.strike f .foreground (.bits [(0, bits)]))) ∧
        (phase = .blank → (∀ o < 512, img o = 0xFF) → placed report .free) ∧
        (phase = .blank → ¬ (∀ o < 512, img o = 0xFF) → placed { report with dirty := report.dirty + 1 } .reclaim) ∧
        (phase ≠ .blank → bits = 0 →
          (phase = .opening →
              State.mountWaitsFor .readComplete s (counted { report with abandoned := report.abandoned + 1 })
                { w with step := .retire } (.strike f .foreground (.bits [(0, 0x70)]))) ∧
            (phase = .live → Image.keyPairConsistent img = false →
              placed { report with orphans := report.orphans + 1 } .quarantine) ∧
            (phase = .live → Image.keyPairConsistent img = true →
              placed report
                (.candidate
                  { frame := f, marker := img 0, key := Image.key img, gen := Image.gen img
                    sound :=
                      if Image.sound img then
                        some
                          ((Image.grant img).cls,
                            (Image.grant img).allowance - max (Image.grant img).countA (Image.grant img).countB)
                      else none })) ∧
            (phase = .moved ∨ phase = .retired → placed report .reclaim))

/-- R150, R151, R152, R155, R134, R135, R136: the completions of mount's own strikes and ERASEs. After a regularising strike,
verified or failed, the classification read before it takes effect, with its counter. A retiring or MOVED strike verified places
the frame for the reclaim queue; failed, the frame's fallback ERASE is claimed. That ERASE verified blank places the frame for the
free pool; failed at its retry, at stage 1 or at blank verify, the frame's mark is struck; that strike verified, the frame joins
the bad-frame map and is not placed, and failed, it sets FAULT_EVENT and the frame is placed for the quarantine set. Mount then
goes on with the scan or the resolution. That a candidate whose regularising strike failed keeps the marker read, and the order of
the pairs, are the model's inferences (log entries 26 and 16). That no READ precedes a loser's MOVED strike, and that a mark strike
failed here adds nothing to the system failures of a FORMAT in progress, are its choices (log entries 33 and 35). -/
def Obligations.MountEndsFrames : Prop :=
  ∀ (s : State) (w : MountWork),
    s.mount.work = some w →
      let ended (f : Frame) (p : Placement) : MountNext → MountWork
        | .scan => { w with scanned := w.scanned ++ [(f, p)] }
        | .resolve _ _ => { w with scanned := w.scanned.map fun q => if q.1 = f then (f, p) else q }
      (∀ (f : Frame) (what : Strike) (stuck : FrameBits),
          s.ctrl.op = some (.strike f .foreground what) → 3 ≤ f.val →
            let m := Memory.strike s.array f (Strike.intended what) stuck
            let verified := Strike.verifies what (Memory.image m f)
            let c : Instr := .strikeComplete stuck
            let idle : State := { s with array := m, ctrl := { s.ctrl with op := none } }
            let r := s.mount.report
            let counted (r : MountReport) : State := { idle with mount := { s.mount with report := r } }
            let scansOn (t : State) (p : Placement) : Prop :=
              State.mountScans c s t { w with scanned := w.scanned ++ [(f, p)] } (f.val + 1)
            let endsOrErases (next : MountNext) : Prop :=
              (verified = true → State.mountProceeds c s idle (ended f .reclaim next) f next) ∧
                (verified = false →
                  State.mountWaitsFor c s idle { w with step := .fallbackErase next }
                    (.erase .foreground
                      { frame := f, attempt := .first, stage := .markerRetirement, progress := 0 } 0))
            (∀ found : Scanned,
                w.step = .regularise found →
                  (∀ k : Candidate,
                      found = .candidate k →
                        scansOn idle
                          (.candidate
                            (if verified then { k with marker := k.marker &&& ~~~ (regularisingBits k.marker) }
                              else k))) ∧
                    (found = .orphan → scansOn (counted { r with orphans := r.orphans + 1 }) .quarantine) ∧
                    (found = .superseded ∨ found = .ended → scansOn idle .reclaim) ∧
                    (found = .abandoned →
                      State.mountWaitsFor c s (counted { r with abandoned := r.abandoned + 1 })
                        { w with step := .retire } (.strike f .foreground (.bits [(0, 0x70)])))) ∧
              (w.step = .retire → endsOrErases .scan) ∧
              ∀ next : MountNext, w.step = .movedStrike next → endsOrErases next) ∧
        (∀ (e : Erase) (since : Nat) (next : MountNext),
          s.ctrl.op = some (.erase .foreground e since) → e.stage = .blankVerify → 3 ≤ e.frame.val →
            w.step = .fallbackErase next →
            (Image.blank (Memory.image s.array e.frame) = true →
                State.mountProceeds .blankVerify s { s with ctrl := { s.ctrl with op := none } }
                  (ended e.frame .free next) e.frame next)) ∧
        (∀ (e : Erase) (c : Instr) (t : State) (next : MountNext),
          State.attemptFails s .foreground e c t → e.attempt = .retry → 3 ≤ e.frame.val →
            w.step = .fallbackErase next →
            State.mountWaitsFor c s t { w with step := .fallbackMark e.frame next }
              (.strike 2 .foreground (.bits [(e.frame.val / 8, (0x80 : Byte) >>> (e.frame.val % 8))]))) ∧
        ∀ (f : Frame) (what : Strike) (stuck : FrameBits) (next : MountNext),
          s.ctrl.op = some (.strike 2 .foreground what) → w.step = .fallbackMark f next →
            let m := Memory.strike s.array 2 (Strike.intended what) stuck
            let idle : State := { s with array := m, ctrl := { s.ctrl with op := none } }
            (Strike.verifies what (Memory.image m 2) = true →
                State.mountProceeds (.strikeComplete stuck) s
                  { idle with pools := { s.pools with bad := insertFrame f s.pools.bad } }
                  { w with scanned := w.scanned.filter fun q => q.1 ≠ f } f next) ∧
              (Strike.verifies what (Memory.image m 2) = false →
                State.mountProceeds (.strikeComplete stuck) s { idle with link := { s.link with faultEvent := true } }
                  (ended f .quarantine next) f next)

/-- R156, R29, R157, R142, R144, R162, R123: a mount in its walk places the frame it has reached, in ascending order, each
placement taking effect as the walk reaches it: a free frame at the free pool's tail, counted; a frame to be reclaimed at the
reclaim queue's tail; a quarantined one in the quarantine set; a winning candidate in the index, live or corrupt, the corrupt
counted. When every frame has been placed the part enters READY with MOUNTED set, and the mount that follows a FORMAT posts
FORMAT's result, DONE when it had no system failure. That one step on an empty queue is one frame of the walk, and that a part
with no walk then idles, is the model's choice (log entries 5 and 23); so is that the failures counted are those of FORMAT's own
operations and none of this mount (log entry 35). -/
def Obligations.WalkPlacesFrames : Prop :=
  ∀ s : State,
    s.pending = [] →
      (∀ (w : MountWork) (f : Frame) (rest : List (Frame × Placement)) (p : Placement),
          s.mount.work = some w → w.step = .walk → w.scanned = (f, p) :: rest →
            let r := s.mount.report
            let t (r : MountReport) : State :=
              { s with mount := { s.mount with work := some { w with scanned := rest }, report := r } }
            let bound (key : Word) (gen : Gen) (cls : Option ClassNo) : List Entry :=
              insertEntry { key := key, frame := f, gen := gen, cls := cls } s.index
            (p = .free →
                step s =
                  .next
                    { t { r with free := r.free + 1 } with
                        pools := { s.pools with free := s.pools.free ++ [f] } }) ∧
              (p = .reclaim →
                step s = .next { t r with pools := { s.pools with reclaim := s.pools.reclaim ++ [f] } }) ∧
              (p = .quarantine →
                step s =
                  .next { t r with pools := { s.pools with quarantine := insertFrame f s.pools.quarantine } }) ∧
              (∀ (c : Candidate) (cls : ClassNo) (units : Nat),
                p = .candidate c → c.sound = some (cls, units) →
                  step s = .next { t r with index := bound c.key c.gen (some cls) }) ∧
              ∀ c : Candidate,
                p = .candidate c → c.sound = none →
                  step s =
                    .next { t { r with corrupt := r.corrupt + 1 } with index := bound c.key c.gen none }) ∧
        (∀ w : MountWork,
          s.mount.work = some w → w.step = .walk → w.scanned = [] →
            let ended : State :=
              { s with
                  part := .ready, link := { s.link with mounted := true }, mount := { s.mount with work := none } }
            (s.engine.job = none → step s = .next ended) ∧
              ∀ (cmd : Command) (f : Formatting),
                s.engine.job = some { cmd := cmd, step := .formatMount f } → s.intake.restartPending = false →
                  step s =
                    .next
                      (State.posted ended cmd
                        { outcome := if f.systemFailures = 0 then .done else .arrayFault, flags := {}
                          payload := .format .ready f.label f.erased f.newlyBad f.systemFailures })) ∧
        ((∀ w : MountWork, s.mount.work = some w → w.step ≠ .walk) → step s = .next s)

/-- R160, R161, R136: FORMAT's READ of frame 2 loads the bad-frame map and leads to the ERASE of frame 0; that ERASE is followed
by that of frame 1, that one by the sweep of the grant frames from 3 on that are not bad, in ascending order, and the sweep by the
strike of the format record. A grant frame verified blank is counted; one that fails has its mark struck, and at that strike's
completion joins the map and is counted newly bad, or sets FAULT_EVENT and is counted a system failure, and the sweep goes on
after it. A system frame that fails sets FAULT_EVENT and is counted. At the completion of the record strike a mount begins with
FORMAT still in progress. -/
def Obligations.FormatSweepsAndMounts : Prop :=
  ∀ (s : State) (cmd : Command) (fm : Formatting),
    s.mount.work = none →
      let eraseOf (g : Frame) (stage : Stage) : Op :=
        .erase .foreground { frame := g, attempt := .first, stage := stage, progress := 0 } 0
      let sweeps (c : Instr) (t : State) (fm' : Formatting) (n : Nat) : Prop :=
        (∀ g : Frame,
            nextFrame t.pools.bad 2048 n = some g → 3 ≤ g.val →
              exec c s = .next (State.wentOn t cmd (.formatErase fm') (eraseOf g .markerRetirement))) ∧
          (nextFrame t.pools.bad 2048 n = none →
            exec c s =
              .next
                (State.wentOn t cmd (.formatRecord fm') (.strike 0 .foreground (.field 0 (formatBytes fm.label)))))
      (s.ctrl.op = some (.read 2) → s.engine.job = some { cmd := cmd, step := .formatMapRead fm } →
          ∃ bad : List Frame,
            (∀ f : Frame, f ∈ bad ↔ 3 ≤ f.val ∧ markStruck (Memory.image s.array 2) 0 f.val = true) ∧
              exec .readComplete s =
                .next
                  (State.wentOn { s with pools := { s.pools with bad := bad } } cmd (.formatErase fm)
                    (eraseOf 0 .systemErase))) ∧
        (∀ (e : Erase) (since : Nat),
          s.ctrl.op = some (.erase .foreground e since) → e.stage = .blankVerify →
            s.engine.job = some { cmd := cmd, step := .formatErase fm } →
            Image.blank (Memory.image s.array e.frame) = true →
            (e.frame = 0 →
                exec .blankVerify s = .next (State.wentOn s cmd (.formatErase fm) (eraseOf 1 .systemErase))) ∧
              (e.frame = 1 → sweeps .blankVerify s fm 3) ∧
              (3 ≤ e.frame.val → sweeps .blankVerify s { fm with erased := fm.erased + 1 } (e.frame.val + 1))) ∧
        (∀ (e : Erase) (c : Instr) (t : State),
          State.attemptFails s .foreground e c t → e.attempt = .retry →
            s.engine.job = some { cmd := cmd, step := .formatErase fm } →
            let failed : Formatting := { fm with systemFailures := fm.systemFailures + 1 }
            let fault : State := { t with link := { s.link with faultEvent := true } }
            (e.frame = 0 →
                exec c s = .next (State.wentOn fault cmd (.formatErase failed) (eraseOf 1 .systemErase))) ∧
              (e.frame = 1 → sweeps c fault failed 3) ∧
              (3 ≤ e.frame.val →
                exec c s =
                  .next
                    (State.wentOn t cmd (.formatMark e.frame fm)
                      (.strike 2 .foreground
                        (.bits [(e.frame.val / 8, (0x80 : Byte) >>> (e.frame.val % 8))]))))) ∧
        (∀ (g : Frame) (what : Strike) (stuck : FrameBits),
          s.ctrl.op = some (.strike 2 .foreground what) → s.engine.job = some { cmd := cmd, step := .formatMark g fm } →
            3 ≤ g.val →
            let m := Memory.strike s.array 2 (Strike.intended what) stuck
            (Strike.verifies what (Memory.image m 2) = true →
                sweeps (.strikeComplete stuck)
                  { s with array := m, pools := { s.pools with bad := insertFrame g s.pools.bad } }
                  { fm with newlyBad := fm.newlyBad + 1 } (g.val + 1)) ∧
              (Strike.verifies what (Memory.image m 2) = false →
                sweeps (.strikeComplete stuck) { s with array := m, link := { s.link with faultEvent := true } }
                  { fm with systemFailures := fm.systemFailures + 1 } (g.val + 1))) ∧
        ∀ (what : Strike) (stuck : FrameBits),
          s.ctrl.op = some (.strike 0 .foreground what) → s.intake.restartPending = false →
            s.engine.job = some { cmd := cmd, step := .formatRecord fm } →
            let m := Memory.strike s.array 0 (Strike.intended what) stuck
            let mounting (failures : Nat) (fault : Bool) : State :=
              { s with
                  part := .mounting
                  array := m
                  link := { s.link with faultEvent := fault }
                  engine :=
                    { s.engine with
                        job :=
                          some { cmd := cmd, step := .formatMount { fm with systemFailures := failures } } }
                  mount :=
                    { s.mount with
                        work := some { step := .readFormat, scanned := [] }, report := MountReport.zero }
                  ctrl := { s.ctrl with op := some (.read 0), waiting := none } }
            (Strike.verifies what (Memory.image m 0) = true →
                exec (.strikeComplete stuck) s = .next (mounting fm.systemFailures s.link.faultEvent)) ∧
              (Strike.verifies what (Memory.image m 0) = false →
                exec (.strikeComplete stuck) s = .next (mounting (fm.systemFailures + 1) true))

/-! ### The stages of an ERASE, the background -/

/-- R112, R113, R118: the stages of an ERASE: marker retirement leads to the body erase when its verify passes; body erase, marker
erase and the system frame's erase lead on. Marker retirement turns to struck the bits of the marker, but for those that stay
standing; the erases turn struck bits of their own bytes to standing, but for those that stay struck; each leaves every other byte
as it was. A first attempt of a foreground ERASE that fails, at the verify of stage 1 or at blank verify, is followed at once by
the retry, from its first stage with no progress, and nothing is reported. What a suspension or a cut leaves of each stage (R116,
R120), and a cut of a STRIKE. (That the array shows it at the event and not before is the model's choice, log entry 13.) -/
def Obligations.EraseStagesRestoreCoveredBytes : Prop :=
  (∀ (m : Memory) (f : Frame) (undone : FrameBits),
      Memory.eraseStage m f .markerRetirement undone = Memory.retireMarker m f undone ∧
        Memory.eraseStage m f .bodyErase undone = Memory.eraseBytes m f 1 512 undone ∧
        Memory.eraseStage m f .markerErase undone = Memory.eraseBytes m f 0 1 undone ∧
        Memory.eraseStage m f .systemErase undone = Memory.eraseBytes m f 0 512 undone ∧
        Memory.eraseStage m f .blankVerify undone = m) ∧
  (∀ (m : Memory) (f : Frame) (claimant : Claimant) (what : Strike) (e : Erase) (since : Nat) (undone : FrameBits),
      Op.cut m undone (.read f) = m ∧
        Op.cut m undone (.strike f claimant what) = Memory.strike m f (Strike.intended what) undone ∧
        Op.cut m undone (.erase claimant e since) = Memory.eraseStage m e.frame e.stage undone) ∧
  (∀ (s : State) (claimant : Claimant) (e : Erase) (since elapsed : Nat) (stuck : FrameBits),
      s.ctrl.op = some (.erase claimant e since) →
        let goesOn (c : Instr) (m : Memory) (stage : Stage) : Prop :=
          exec c s =
            .next
              { s with
                  array := m
                  ctrl :=
                    { s.ctrl with
                        op :=
                          some
                            (.erase claimant { e with stage := stage, progress := e.progress + elapsed }
                              (since + elapsed)) } }
        (e.stage = .markerRetirement → Memory.image (Memory.retireMarker s.array e.frame stuck) e.frame 0 = 0 →
            goesOn (.markerRetirement elapsed stuck) (Memory.retireMarker s.array e.frame stuck) .bodyErase) ∧
          (e.stage = .bodyErase →
            goesOn (.bodyErase elapsed stuck) (Memory.eraseBytes s.array e.frame 1 512 stuck) .markerErase) ∧
          (e.stage = .markerErase →
            goesOn (.markerErase elapsed stuck) (Memory.eraseBytes s.array e.frame 0 1 stuck) .blankVerify) ∧
          (e.stage = .systemErase →
            goesOn (.systemFrameErase elapsed stuck) (Memory.eraseBytes s.array e.frame 0 512 stuck) .blankVerify)) ∧
  (∀ (s t : State) (e : Erase) (c : Instr),
      State.attemptFails s .foreground e c t → e.attempt = .first →
        exec c s =
          .next
            { t with
                ctrl :=
                  { s.ctrl with
                      op :=
                        some
                          (.erase .foreground
                            { frame := e.frame, attempt := .retry, progress := 0
                              stage := if e.frame.val < 3 then .systemErase else .markerRetirement }
                            0) } }) ∧
  (∀ (m : Memory) (f : Frame) (lo hi a : Nat) (stuck : FrameBits),
      Memory.wf m = true → hi ≤ 512 →
        ((∀ o, lo ≤ o → o < hi → a ≠ 512 * f.val + o) →
            Memory.read (Memory.eraseBytes m f lo hi stuck) a = Memory.read m a) ∧
          ∀ o, lo ≤ o → o < hi →
            Memory.read (Memory.eraseBytes m f lo hi stuck) (512 * f.val + o) =
              (Memory.read m (512 * f.val + o) ||| ~~~ (FrameBits.bitsAt stuck o))) ∧
  ∀ (m : Memory) (f : Frame) (a : Nat) (stuck : FrameBits),
    Memory.wf m = true →
      (a ≠ 512 * f.val → Memory.read (Memory.retireMarker m f stuck) a = Memory.read m a) ∧
        Memory.read (Memory.retireMarker m f stuck) (512 * f.val) =
          (Memory.read m (512 * f.val) &&& FrameBits.bitsAt stuck 0)

/-- R113, R119, R114, R130, R134, R135, R136: a background ERASE that passes its blank verify moves its frame from the head of the
reclaim queue to the free pool's tail. Its first attempt failed, at stage 1 or at blank verify, the retry begins at stage 1, or is
suspended when a foreground claim waits; its retry failed, the frame's mark in frame 2 is struck by the background before any
waiting claim is served, and at that strike's completion the frame goes to the bad-frame map, or after a failure to the quarantine
set with FAULT_EVENT. A waiting foreground claim begins at each of these ends, with the operation it asks for. -/
def Obligations.BackgroundEraseEnds : Prop :=
  (∀ (f : Frame) (what : Strike),
      Claim.operation (.read f) = some (.read f) ∧
        Claim.operation (.strike f what) = some (.strike f .foreground what) ∧
        Claim.operation (.erase f) =
          some
            (.erase .foreground
              { frame := f, attempt := .first, progress := 0
                stage := if f.val < 3 then .systemErase else .markerRetirement }
              0) ∧
        Claim.operation .demand = none) ∧
  ∀ s : State,
    let ends (c : Instr) (t : State) : Prop :=
      (s.ctrl.waiting = none → exec c s = .next { t with ctrl := { t.ctrl with op := none } }) ∧
        ∀ (k : Claim) (op : Op),
          s.ctrl.waiting = some k → Claim.operation k = some op →
            exec c s = .next { t with ctrl := { t.ctrl with op := some op, waiting := none } }
    (∀ (e : Erase) (since : Nat) (rest : List Frame),
        s.ctrl.op = some (.erase .background e since) → e.stage = .blankVerify →
          Image.blank (Memory.image s.array e.frame) = true → s.pools.reclaim = e.frame :: rest → e.frame ∉ rest →
            ends .blankVerify
              { s with pools := { s.pools with reclaim := rest, free := s.pools.free ++ [e.frame] } }) ∧
      (∀ (e : Erase) (c : Instr) (t : State),
        State.attemptFails s .background e c t → 3 ≤ e.frame.val →
          let again : Erase := { frame := e.frame, attempt := .retry, stage := .markerRetirement, progress := 0 }
          (e.attempt = .first → s.ctrl.waiting = none →
              exec c s = .next { t with ctrl := { s.ctrl with op := some (.erase .background again 0) } }) ∧
            (∀ (k : Claim) (op : Op),
              e.attempt = .first → s.ctrl.waiting = some k → Claim.operation k = some op →
                exec c s = .next { t with ctrl := { op := some op, suspended := some again, waiting := none } }) ∧
            (e.attempt = .retry →
              exec c s =
                .next
                  { t with
                      ctrl :=
                        { s.ctrl with
                            op :=
                              some
                                (.strike 2 .background
                                  (.bits [(e.frame.val / 8, (0x80 : Byte) >>> (e.frame.val % 8))])) } })) ∧
      ∀ (what : Strike) (stuck : FrameBits) (f : Frame) (rest : List Frame),
        s.ctrl.op = some (.strike 2 .background what) → s.pools.reclaim = f :: rest →
          let m := Memory.strike s.array 2 (Strike.intended what) stuck
          (Strike.verifies what (Memory.image m 2) = true →
              ends (.strikeComplete stuck)
                { s with array := m, pools := { s.pools with reclaim := rest, bad := insertFrame f s.pools.bad } }) ∧
            (Strike.verifies what (Memory.image m 2) = false →
              ends (.strikeComplete stuck)
                { s with
                    array := m
                    link := { s.link with faultEvent := true }
                    pools :=
                      { s.pools with reclaim := rest, quarantine := insertFrame f s.pools.quarantine } })

/-- R117, R115, R116, R114, R107, R124, R129: with the foreground quiet, background reclaim starts an ERASE of the reclaim queue's
head when the controller is IDLE, and resumes the suspended erase with its attempt, stage and progress when there is one; the
quantum brings it to 400 µs of progress since its start or resume; after it, in stage 2 or 3, the suspension records the erase
with its attempt and progress and the waiting claim's operation begins; before it nothing is suspended. Only with the foreground
quiet does any step bring a background ERASE to progress that was not progressing. The controller's state is named from its
progressing operation and its suspended erase, background reclaim's from its claims, and the erase record names the frame under
erase as background or demand. That a suspension before the quantum is no event, that the array shows a stage's work only at its
end or suspension, and that the erase record is none in the mark strike of a demand ERASE are the model's (log entries 3, 13 and
34). -/
def Obligations.BackgroundEraseStartsYieldsResumes : Prop :=
  (∀ s : State,
      s.part = .ready → s.engine.job = none → s.intake.waiting = [] → s.ctrl.op = none →
        (∀ (f : Frame) (rest : List Frame),
            s.ctrl.suspended = none → s.pools.reclaim = f :: rest → 3 ≤ f.val →
              exec .backgroundStart s =
                .next
                  { s with
                      ctrl :=
                        { s.ctrl with
                            op :=
                              some
                                (.erase .background
                                  { frame := f, attempt := .first, stage := .markerRetirement, progress := 0 } 0) } }) ∧
          ∀ e : Erase,
            s.ctrl.suspended = some e →
              exec .backgroundResume s =
                .next { s with ctrl := { s.ctrl with op := some (.erase .background e 0), suspended := none } }) ∧
  (∀ (s : State) (e : Erase) (since elapsed : Nat) (undone : FrameBits),
      s.ctrl.op = some (.erase .background e since) →
        (since < 400 → e.stage ≠ .markerRetirement →
            exec .quantum s =
              .next
                { s with
                    ctrl :=
                      { s.ctrl with
                          op := some (.erase .background { e with progress := e.progress + (400 - since) } 400) } }) ∧
          (∀ (k : Claim) (op : Op),
            400 ≤ since + elapsed → (e.stage = .bodyErase ∨ e.stage = .markerErase) → s.ctrl.waiting = some k →
              Claim.operation k = some op →
              exec (.suspension elapsed undone) s =
                .next
                  { s with
                      array := Memory.eraseStage s.array e.frame e.stage undone
                      ctrl :=
                        { op := some op
                          suspended := some { e with progress := e.progress + elapsed }
                          waiting := none } }) ∧
          (since + elapsed < 400 → exec (.suspension elapsed undone) s = .next s)) ∧
  (∀ s t : State,
    step s = .next t → State.backgroundErasing t → ¬ State.backgroundErasing s →
      s.part = .ready ∧ s.engine.job = none ∧ s.intake.waiting = []) ∧
  (∀ c : Controller,
    (Controller.named c = .idle ↔ c.op = none ∧ c.suspended = none) ∧
      (Controller.named c = .reading ↔ ∃ f : Frame, c.op = some (.read f)) ∧
      (Controller.named c = .striking ↔ ∃ (f : Frame) (k : Claimant) (what : Strike), c.op = some (.strike f k what)) ∧
      (Controller.named c = .erasing ↔ ∃ (k : Claimant) (e : Erase) (since : Nat), c.op = some (.erase k e since)) ∧
      (Controller.named c = .eraseSuspended ↔ c.op = none ∧ c.suspended ≠ none)) ∧
  ∀ s : State,
    let foreground : Prop :=
      (∀ (e : Erase) (since : Nat), s.ctrl.op ≠ some (.erase .background e since)) ∧
        ∀ (f : Frame) (what : Strike), s.ctrl.op ≠ some (.strike f .background what)
    (Controller.reclaimState s.ctrl = .idle ↔ foreground ∧ s.ctrl.suspended = none) ∧
      (Controller.reclaimState s.ctrl = .suspended ↔ foreground ∧ s.ctrl.suspended ≠ none) ∧
      (Controller.reclaimState s.ctrl = .erasing ↔
        ∃ (e : Erase) (since : Nat), s.ctrl.op = some (.erase .background e since) ∧ e.stage ≠ .blankVerify) ∧
      (Controller.reclaimState s.ctrl = .verifying ↔
        (∃ (e : Erase) (since : Nat), s.ctrl.op = some (.erase .background e since) ∧ e.stage = .blankVerify) ∨
          ∃ (f : Frame) (what : Strike), s.ctrl.op = some (.strike f .background what)) ∧
      (∀ (e : Erase) (since : Nat),
        s.ctrl.op = some (.erase .background e since) → State.eraseRecord s = some (e.frame, false)) ∧
      (∀ (f g : Frame) (what : Strike) (rest : List Frame),
        s.ctrl.op = some (.strike f .background what) → s.pools.reclaim = g :: rest →
          State.eraseRecord s = some (g, false)) ∧
      (∀ (e : Erase) (since : Nat) (cmd : Command) (w : Writing),
        s.ctrl.op = some (.erase .foreground e since) → s.engine.job = some { cmd := cmd, step := .takeErase w } →
          State.eraseRecord s = some (e.frame, true)) ∧
      (foreground → (∀ (cmd : Command) (w : Writing), s.engine.job ≠ some { cmd := cmd, step := .takeErase w }) →
        State.eraseRecord s = s.ctrl.suspended.map fun e => (e.frame, false))

/-! ### Records -/

/-- R16, R17, R50, R52, R133: mark n is struck exactly when bit 7 minus (n mod 8) of byte n / 8 of its copy, or of the bad-frame
map, reads 0 (R133); the consumed count of a copy is one more than its highest struck mark below the allowance, or 0 when there is
none (R17); the strike of a copy runs from that count up to the target (R52), so every mark a DRAW intends lies below the
allowance and reads standing (R50). That a tally copy places its marks so, copy A from byte 64 and copy B from byte 192, is the
model's choice, log entry 6. -/
def Obligations.TallyCountsAndStrikes : Prop :=
  (tallyA = 64 ∧ tallyB = 192 ∧
    ∀ (img : Image) (base n : Nat), markStruck img base n = true ↔ (img (base + n / 8)).getLsbD (7 - n % 8) = false) ∧
  (∀ (img : Image) (base allowance : Nat),
      consumed img base allowance ≤ allowance ∧
        (∀ n, consumed img base allowance ≤ n → n < allowance → markStruck img base n = false) ∧
        (0 < consumed img base allowance → markStruck img base (consumed img base allowance - 1) = true)) ∧
  (∀ (img : Image) (allowance target base n : Nat),
      allowance ≤ 1024 → target ≤ allowance → (base = tallyA ∨ base = tallyB) →
        let count := consumed img base allowance
        let intended := Strike.intended (tallyStrike base count target)
        ((∃ p ∈ intended, p.1 = base + n / 8 ∧ p.2.getLsbD (7 - n % 8) = true) ↔ count ≤ n ∧ n < target) ∧
          (count ≤ n → n < target → markStruck img base n = false))

/-- R154, R9: two candidates of one key in different frames have one winner, whichever is named first, and the winner is by the
first case that applies. -/
def Obligations.DuplicateResolutionPicksOneWinner : Prop :=
  ∀ p q : Candidate,
    p.frame ≠ q.frame →
      (firstWins p q = !(firstWins q p)) ∧
        (p.sound ≠ none → q.sound = none → firstWins p q = true) ∧
        ((p.sound = none ↔ q.sound = none) →
          (1 ≤ (p.gen - q.gen).toNat → (p.gen - q.gen).toNat ≤ 32767 → firstWins p q = true) ∧
            ((p.gen = q.gen ∨ (p.gen - q.gen).toNat = 32768) →
              (∀ k l r u, p.sound = some (k, r) → q.sound = some (l, u) → r < u → firstWins p q = true) ∧
                ((∀ k l r u, p.sound = some (k, r) → q.sound = some (l, u) → r = u) → p.frame < q.frame →
                  firstWins p q = true)))

/-- R66, R3, R4, R6, R8, R14, R15, R17: a marker decodes by the most advanced of its bits 7 to 4 that is struck, and is irregular
unless it is one of the five clean values. A transition intends the bits struck in the clean value of the new stage and standing
in the marker as read; a regularising strike those of the decoded stage. A read through an entry is sound exactly when the five
conditions of R15 hold, the check code covering the sequence of R14. A record written whole into a frame that reads LIVE reads
back sound, every field as written. The places of the fields in the frame and their bytes' order, most significant first, are the
model's choice (log entry 6). -/
def Obligations.GrantRecordReadsBackAsWritten : Prop :=
  (∀ m : Byte,
      let struck (i : Nat) : Prop := m.getLsbD i = false
      (phaseOf m = .retired ↔ struck 4) ∧ (phaseOf m = .moved ↔ ¬ struck 4 ∧ struck 5) ∧
        (phaseOf m = .live ↔ ¬ struck 4 ∧ ¬ struck 5 ∧ struck 6) ∧
        (phaseOf m = .opening ↔ ¬ struck 4 ∧ ¬ struck 5 ∧ ¬ struck 6 ∧ struck 7) ∧
        (phaseOf m = .blank ↔ ¬ struck 4 ∧ ¬ struck 5 ∧ ¬ struck 6 ∧ ¬ struck 7) ∧
        (irregular m = false ↔ m = 0xFF ∨ m = 0x7F ∨ m = 0x3F ∨ m = 0x1F ∨ m = 0x0F)) ∧
  (([.blank, .opening, .live, .moved, .retired] : List Phase).map cleanMarker = [0xFF, 0x7F, 0x3F, 0x1F, 0x0F] ∧
    ∀ (stage : Phase) (m : Byte) (i : Nat),
      i < 8 →
        ((transitionBits stage m).getLsbD i = true ↔
            (cleanMarker stage).getLsbD i = false ∧ m.getLsbD i = true) ∧
          ((regularisingBits m).getLsbD i = true ↔
            (cleanMarker (phaseOf m)).getLsbD i = false ∧ m.getLsbD i = true)) ∧
  (∀ (img : Image) (e : Entry),
      (Image.key img = img 1 ++ img 2 ++ img 3 ++ img 4 ∧ Image.keyComplement img = img 5 ++ img 6 ++ img 7 ++ img 8 ∧
          Image.gen img = img 9 ++ img 10 ∧ Image.classByte img = img 11 ∧
          Image.allowance img = (img 12).toNat * 256 + (img 13).toNat ∧ Image.presence img = img 14 ∧
          Image.opens img = img 15 ++ img 16 ++ img 17 ++ img 18 ∧
          Image.closes img = img 19 ++ img 20 ++ img 21 ++ img 22 ∧ Image.labelLength img = (img 23).toNat ∧
          Image.topups img = (img 48).toNat ∧ Image.storedCode img = img 49 ++ img 50 ++ img 51 ++ img 52) ∧
        (Image.keyPairConsistent img = true ↔
          Image.keyComplement img = ~~~ (Image.key img) ∧ Image.key img ≠ 0 ∧ Image.key img ≠ 0xFFFFFFFF) ∧
        (Image.soundFor img e = true ↔ Image.sound img = true ∧ Image.key img = e.key ∧ Image.gen img = e.gen) ∧
        ((Image.classByte img).toNat ≤ 15 → Image.labelLength img ≤ 24 →
          ∃ cls : ClassNo,
            cls.val = (Image.classByte img).toNat ∧
              Image.grant img =
                { marker := img 0, key := Image.key img, gen := Image.gen img, cls := cls
                  allowance := Image.allowance img
                  window :=
                    if Image.presence img = 1 then some { opens := Image.opens img, closes := Image.closes img } else none
                  label := (List.range (Image.labelLength img)).map fun i => img (24 + i)
                  topups := Image.topups img, countA := consumed img tallyA (Image.allowance img)
                  countB := consumed img tallyB (Image.allowance img) })) ∧
  (∀ (img : Image) (e : Entry),
      Image.soundFor img e = true ↔
        phaseOf (img 0) = .live ∧
          (Image.keyComplement img = ~~~ (Image.key img) ∧ Image.key img ≠ 0 ∧ Image.key img ≠ 0xFFFFFFFF) ∧
          ((Image.classByte img).toNat ≤ 15 ∧ 1 ≤ Image.allowance img ∧ Image.allowance img ≤ 1024 ∧
            (Image.presence img = 0 ∨ Image.presence img = 1) ∧ Image.labelLength img ≤ 24) ∧
          Image.storedCode img =
            checkCode
              (be32 (Image.key img) ++ be16 (Image.gen img).toNat ++ [Image.classByte img] ++
                be16 (Image.allowance img) ++
                (if Image.presence img = 1 then (1 : Byte) :: (be32 (Image.opens img) ++ be32 (Image.closes img))
                  else List.replicate 9 0) ++
                [BitVec.ofNat 8 (Image.labelLength img)] ++
                (List.range (Image.labelLength img)).map (fun i => img (24 + i)) ++
                [BitVec.ofNat 8 (Image.topups img)]) ∧
          Image.key img = e.key ∧ Image.gen img = e.gen) ∧
  ∀ (r : NewRecord) (img : Image),
    r.key ≠ 0 → r.key ≠ 0xFFFFFFFF → 1 ≤ r.allowance → r.allowance ≤ 1024 → r.label.length ≤ 24 → r.topups ≤ 255 →
      (recordBytes r).length = 52 ∧ recordStart = 1 ∧
        (phaseOf (img 0) = .live → (∀ i < 52, img (recordStart + i) = (recordBytes r).getD i 0) →
          Image.sound img = true ∧
            Image.grant img =
              { marker := img 0, key := r.key, gen := r.gen, cls := r.cls, allowance := r.allowance, window := r.window,
                label := r.label, topups := r.topups, countA := consumed img tallyA r.allowance,
                countB := consumed img tallyB r.allowance })

/-- R90, R91, R92, R145: a policy region reads UNCONFIGURED exactly when its 32 bytes are blank, SET exactly when it is not blank,
its six yes/no fields read H'00 or H'01, its limit 1 to 1024 and its check code over the class number and those eight bytes
passes, then with the fields as read, and otherwise FAULTED. Frame 0 is valid exactly when the fixed fields hold their values and
the check code over its first 14 bytes passes. A policy record written whole into its class's region decodes SET with the fields
written, and a format record written whole into frame 0 decodes valid, not blank, with its label; both leave the bytes after the
record standing. A frame is blank when every bit of its 512 bytes stands. -/
def Obligations.SystemRecordsReadBackAsWritten : Prop :=
  (∀ (k : ClassNo) (img : Image),
      let field (i : Nat) : Byte := img (32 * k.val + i)
      let blank : Prop := ∀ i < 32, field i = 0xFF
      let maxUnits := (field 6).toNat * 256 + (field 7).toNat
      let passes : Prop :=
        (∀ i < 6, field i = 0 ∨ field i = 1) ∧ 1 ≤ maxUnits ∧ maxUnits ≤ 1024 ∧
          field 8 ++ field 9 ++ field 10 ++ field 11 =
            checkCode (BitVec.ofNat 8 k.val :: (List.range 8).map field)
      (Image.classStatus img k = .unconfigured ↔ blank) ∧
        (Image.classStatus img k = .faulted ↔ ¬ blank ∧ ¬ passes) ∧
        (¬ blank → passes →
          Image.classStatus img k =
            .set
              { drawPermitted := field 0 = 1, topupPermitted := field 1 = 1, revokePermitted := field 2 = 1
                retireWhenSpent := field 3 = 1, startHeld := field 4 = 1, windowRequired := field 5 = 1
                maxUnits := maxUnits })) ∧
  (∀ img : Image,
      Image.formatValid img = true ↔
        (List.range 10).map img = be32 0x5AC317E8 ++ be16 2048 ++ be16 512 ++ be16 3 ∧
          img 14 ++ img 15 ++ img 16 ++ img 17 = checkCode ((List.range 14).map img)) ∧
  (∀ img : Image,
      (Image.blank img = true ↔ ∀ o < 512, img o = 0xFF) ∧
        Image.storeLabel img = img 10 ++ img 11 ++ img 12 ++ img 13) ∧
  (∀ (k : ClassNo) (p : Policy) (label : Word),
      (policyBytes k p).length = 32 ∧ (policyBytes k p).drop 12 = List.replicate 20 0xFF ∧
        (formatBytes label).length = 512 ∧ (formatBytes label).drop 18 = List.replicate 494 0xFF) ∧
  (∀ (k : ClassNo) (p : Policy) (img : Image),
      1 ≤ p.maxUnits → p.maxUnits ≤ 1024 → (∀ i < 32, img (32 * k.val + i) = (policyBytes k p).getD i 0) →
        Image.classStatus img k = .set p) ∧
    ∀ (label : Word) (img : Image),
      (∀ i < 512, img i = (formatBytes label).getD i 0) →
        Image.formatValid img = true ∧ Image.blank img = false ∧ Image.storeLabel img = label

/-- R181, R182, R195, R197, R198, R99, R188, R13: numbers are sent most significant byte first; the value of every code, of the
part state and of a yes/no byte; the link CRC and the check code bit by bit; a record is its header (length, tag, command code,
outcome, flags, presence), its payload and the link CRC over both; which flag and which item each bit of the flags and presence
bytes shows; the items of every payload in order, with zero bytes for an absent item, and their lengths; the 64 bytes of the INFO
answer, each item at its place. The model's choices are: a system failures count above 255 sent modulo 256 (log entry 30), the
unnamed bits of a presence byte and of a LIST entry's flags byte sent 0 (log entry 29), the window bytes of a record without a
window free (log entry 8), the epoch and label bytes, when unset or absent, free (log entry 7). Its inferences are: the status
byte of a CONFIGURE CLASS record and the part state byte of a FORMAT record, coded as INFO codes them (log entry 20). -/
def Obligations.SentBytesStandInTheirPlaces : Prop :=
  (∀ (n : Nat) (w : Word),
      be16 n = [BitVec.ofNat 8 (n / 256), BitVec.ofNat 8 n] ∧
        be32 w = [w.extractLsb' 24 8, w.extractLsb' 16 8, w.extractLsb' 8 8, w.extractLsb' 0 8]) ∧
  (boolByte false = 0 ∧ boolByte true = 1 ∧
    ([.mounting, .ready, .unformatted, .faulted, .formatting] : List PartState).map PartState.field = [0, 1, 2, 3, 4]) ∧
  (linkCrc [] = 0xFFFFFFFF ∧
    ∀ (bytes : List Byte) (b : Byte),
      linkCrc (bytes ++ [b]) =
          (List.range 8).foldl
            (fun r _ => if r.getLsbD 31 then (r <<< 1) ^^^ (0x04C11DB7 : Word) else r <<< 1)
            (linkCrc bytes ^^^ (b.setWidth 32 <<< 24)) ∧
        checkCode bytes = ~~~ (linkCrc bytes)) ∧
  (([.done, .cancelled, .notFound, .corrupt, .badArgument, .noPolicy, .policyFault, .notPermitted, .keyExists, .full,
        .arrayFault, .held, .epochUnset, .early, .lapsed, .spent, .short, .overLimit, .limit, .alreadySet, .tooLate,
        .epochBackward, .noneWaiting, .notReady, .isOpen] : List Code).map Code.byte =
      (List.range 25).map (BitVec.ofNat 8) ∧
    ([.accepted, .queueFull, .tagZero, .tagInUse, .frameError, .lengthError, .unknownCommand] : List Code).map
        Code.byte =
      [0x20, 0x21, 0x22, 0x23, 0x24, 0x25, 0x26]) ∧
  (∀ r : Record,
      let payload := Payload.bytes r.result.payload
      let body :=
        [BitVec.ofNat 8 (10 + payload.length), r.cmd.tag, r.cmd.code, Code.byte r.result.outcome,
          Flags.byte r.result.flags, Payload.presence r.result.payload] ++ payload
      Record.bytes r = body ++ be32 (linkCrc body) ∧ (Record.bytes r).length = 10 + payload.length) ∧
  (∀ f : Flags,
      (Flags.byte f).getLsbD 5 = f.more ∧ (Flags.byte f).getLsbD 4 = f.corrupt ∧ (Flags.byte f).getLsbD 3 = f.skewed ∧
        (Flags.byte f).getLsbD 2 = f.retired ∧ (Flags.byte f).getLsbD 1 = f.degraded ∧
        (Flags.byte f).getLsbD 0 = f.skewRepaired) ∧
  (∀ (key : Word) (frame : Option Frame) (gen : Option Gen) (allowance remaining topups : Option Nat)
      (report : Option LookupReport) (cls : Option Byte) (status : Option ClassStatus) (n : Nat),
      let bits (p : Payload) : List Bool :=
        [(Payload.presence p).getLsbD 7, (Payload.presence p).getLsbD 6, (Payload.presence p).getLsbD 5,
          (Payload.presence p).getLsbD 4, (Payload.presence p).getLsbD 3]
      let zeroes (x : Option Nat) : List Byte := (x.map be16).getD [0, 0]
      let frameBytes := (frame.map fun f => be16 f.val).getD [0, 0]
      let genBytes := (gen.map fun g => be16 g.toNat).getD [0, 0]
      Payload.presence .nothing = 0 ∧
        bits (.issue key frame gen allowance n) = [frame.isSome, gen.isSome, allowance.isSome, false, false] ∧
        Payload.bytes (.issue key frame gen allowance n) =
          be32 key ++ frameBytes ++ genBytes ++ zeroes allowance ++ [BitVec.ofNat 8 n] ∧
        bits (.lookup key gen report) = [gen.isSome, report.isSome, false, false, false] ∧
        Payload.bytes (.lookup key gen none) = be32 key ++ genBytes ∧
        (∀ r : LookupReport,
          Payload.bytes (.lookup key gen (some r)) =
            be32 key ++ genBytes ++ be16 r.frame.val ++ [BitVec.ofNat 8 r.cls.val] ++ be16 r.allowance ++
              [boolByte r.window.isSome] ++ be32 (r.window.getD r.absentWindow).opens ++
              be32 (r.window.getD r.absentWindow).closes ++ [BitVec.ofNat 8 r.topups] ++ be16 r.countA ++
              be16 r.countB ++ be16 r.remaining ++ [Code.byte r.condition] ++ [BitVec.ofNat 8 r.label.length] ++
              r.label) ∧
        bits (.draw key gen n remaining) = [gen.isSome, remaining.isSome, false, false, false] ∧
        Payload.bytes (.draw key gen n remaining) = be32 key ++ genBytes ++ be16 n ++ zeroes remaining ∧
        bits (.relocation key frame gen allowance remaining topups n) =
          [frame.isSome, gen.isSome, allowance.isSome, remaining.isSome, topups.isSome] ∧
        Payload.bytes (.relocation key frame gen allowance remaining topups n) =
          be32 key ++ frameBytes ++ genBytes ++ zeroes allowance ++ zeroes remaining ++
            [BitVec.ofNat 8 (topups.getD 0)] ++ [BitVec.ofNat 8 n] ∧
        bits (.revoke key frame gen) = [frame.isSome, gen.isSome, false, false, false] ∧
        Payload.bytes (.revoke key frame gen) = be32 key ++ frameBytes ++ genBytes ∧
        bits (.configure cls status) =
          [cls.isSome, status.isSome, (status.bind ClassStatus.policy).isSome, false, false] ∧
        (∀ p : Policy,
          Payload.bytes (.configure cls (some (.set p))) =
              [cls.getD 0, 1, boolByte p.drawPermitted, boolByte p.topupPermitted, boolByte p.revokePermitted,
                boolByte p.retireWhenSpent, boolByte p.startHeld, boolByte p.windowRequired] ++ be16 p.maxUnits ∧
            bits (.configure cls (some (.set p))) = [cls.isSome, true, true, false, false]) ∧
        Payload.bytes (.configure cls none) = cls.getD 0 :: List.replicate 9 0 ∧
        Payload.bytes (.configure cls (some .unconfigured)) = cls.getD 0 :: 0 :: List.replicate 8 0 ∧
        Payload.bytes (.configure cls (some .faulted)) = cls.getD 0 :: 2 :: List.replicate 8 0 ∧
        bits (.configure cls none) = [cls.isSome, false, false, false, false] ∧
        bits (.configure cls (some .unconfigured)) = [cls.isSome, true, false, false, false] ∧
        bits (.configure cls (some .faulted)) = [cls.isSome, true, false, false, false]) ∧
  (∀ (part : PartState) (label : Word) (erased newlyBad failures moved failed : Nat) (entries : List Entry),
      Payload.presence (.purge moved failed) = 0 ∧ Payload.presence (.list entries) = 0 ∧
        Payload.presence (.format part label erased newlyBad failures) = 0 ∧ Payload.bytes .nothing = [] ∧
        Payload.bytes (.purge moved failed) = be16 moved ++ be16 failed ∧
        Payload.bytes (.format part label erased newlyBad failures) =
          [PartState.field part] ++ be32 label ++ be16 erased ++ be16 newlyBad ++ [BitVec.ofNat 8 failures] ∧
        Payload.bytes (.list entries) =
          BitVec.ofNat 8 entries.length ::
            entries.flatMap fun e =>
              be32 e.key ++ be16 e.frame.val ++ be16 e.gen.toNat ++
                (match e.cls with
                  | some k => [0, BitVec.ofNat 8 k.val]
                  | none => [1, 0])) ∧
  ((∀ key frame gen allowance failed, (Payload.bytes (.issue key frame gen allowance failed)).length = 11) ∧
    (∀ key gen, (Payload.bytes (.lookup key gen none)).length = 6) ∧
    (∀ key gen (report : LookupReport),
      (Payload.bytes (.lookup key gen (some report))).length = 29 + report.label.length) ∧
    (∀ key gen drawn remaining, (Payload.bytes (.draw key gen drawn remaining)).length = 10) ∧
    (∀ key frame gen allowance remaining topups failed,
      (Payload.bytes (.relocation key frame gen allowance remaining topups failed)).length = 14) ∧
    (∀ key frame gen, (Payload.bytes (.revoke key frame gen)).length = 8) ∧
    (∀ entries : List Entry, (Payload.bytes (.list entries)).length = 1 + 10 * entries.length) ∧
    (∀ cls status, (Payload.bytes (.configure cls status)).length = 10) ∧
    (∀ moved failed, (Payload.bytes (.purge moved failed)).length = 4) ∧
    (∀ part label erased newlyBad failures,
      (Payload.bytes (.format part label erased newlyBad failures)).length = 10)) ∧
  ∀ s : State,
    let info := State.infoBytes s
    let byte (i : Nat) : Byte := info.getD i 0
    let two (i : Nat) : List Byte := (info.drop i).take 2
    info.length = 64 ∧
      (byte 0 = PartState.field s.part ∧ byte 1 = boolByte s.intake.restartPending ∧
        byte 2 = BitVec.ofNat 8 s.intake.waiting.length ∧
        byte 3 = ((s.engine.job.map fun j => j.cmd.tag).getD 0) ∧
        byte 4 = BitVec.ofNat 8 s.intake.results.length) ∧
      (two 5 = be16 s.pools.free.length ∧ two 7 = be16 s.pools.reclaim.length ∧
        two 9 = be16 s.pools.quarantine.length ∧ two 11 = be16 s.pools.bad.length ∧
        two 13 = be16 (s.index.countP fun e => e.cls.isSome) ∧ two 15 = be16 (s.index.countP fun e => e.cls.isNone)) ∧
      (byte 17 = boolByte s.engine.epoch.isSome ∧
        ∀ e : Word, s.engine.epoch = some e → (info.drop 18).take 4 = be32 e) ∧
      (∀ k : ClassNo,
        (s.policies[k] = .unconfigured → byte (22 + k.val) = 0) ∧
          (∀ p : Policy, s.policies[k] = .set p → byte (22 + k.val) = 1) ∧
          (s.policies[k] = .faulted → byte (22 + k.val) = 2) ∧
          (byte 38 ++ byte 39).getLsbD (15 - k.val) = s.engine.holds[k]) ∧
      (byte 40 = boolByte s.mount.label.isSome ∧
        ∀ label : Word, s.mount.label = some label → (info.drop 41).take 4 = be32 label) ∧
      ((byte 45).getLsbD 1 = State.lowFree s ∧ (byte 45).getLsbD 0 = s.link.faultEvent) ∧
      (two 46 = be16 s.mount.report.free ∧ two 48 = be16 s.mount.report.dirty ∧
        two 50 = be16 s.mount.report.abandoned ∧ two 52 = be16 s.mount.report.duplicates ∧
        two 54 = be16 s.mount.report.irregular ∧ two 56 = be16 s.mount.report.orphans ∧
        two 58 = be16 s.mount.report.corrupt) ∧
      info.drop 60 = be32 (linkCrc (info.take 60))

/-! ### Laws of the whole part -/

/-- The safe conditions hold right after reset; that the array is then blank is the model's choice (log entry 1). -/
def Obligations.ResetIsSafe : Prop := State.Safe State.reset

/-- Every step keeps the frame array in its canonical form, so that equal arrays are equal data (the model's own form of R106's
array). -/
def Obligations.CanonicalArrayKept : Prop :=
  ∀ s t : State, State.arrayOk s → step s = .next t → State.arrayOk t

/-- R165, R166: the command slots in use never exceed 8, and no two commands holding a slot share a tag: every step keeps it. -/
def Obligations.SlotBoundsAndDistinctTagsKept : Prop :=
  ∀ s t : State, State.slotsOk s → step s = .next t → State.slotsOk t

/-- R25, R26, R28, R29, R155: the index keeps its entries in ascending order of key and no two share a key: every step keeps it,
with what it rests on (`State.keysOk`: the key an ISSUE is writing is not in the index, the candidates of a mount's walk have new
and distinct keys), while the work in progress is coherent (`State.workOk`, which MountAndWorkCoherentKept keeps). -/
def Obligations.DistinctKeysInOrderKept : Prop :=
  ∀ s t : State, State.workOk s → State.keysOk s → step s = .next t → State.keysOk t ∧ State.indexOk t

/-- R142, R107, R114, R116, R108, R192: a mount is in progress only while the part is MOUNTING; a foreground claim waits only for
a background operation, no erase is suspended while one progresses, and during a mount no command is in progress but the FORMAT
before it: every step keeps the first alone, and all of it together (`State.workOk`). (What POWER_LOSS leaves is log entry 10.) -/
def Obligations.MountAndWorkCoherentKept : Prop :=
  ∀ s t : State,
    step s = .next t → (State.mountOk s → State.mountOk t) ∧ (State.workOk s → State.workOk t)

/-- R123, R64, R128, R26: a grant frame stands in at most one of the free pool, the reclaim queue, the quarantine set, the
bad-frame map, the index, the hold of the command in progress and the scan of a mount, and while the part is READY in exactly one:
every step keeps it, with what it rests on (`State.placesOk`), in states whose work is coherent and whose keys are in order
(`State.workOk` and `State.keysOk`, kept by MountAndWorkCoherentKept and DistinctKeysInOrderKept). -/
def Obligations.FramesInOnePlaceKept : Prop :=
  ∀ s t : State,
    State.workOk s → State.keysOk s → State.placesOk s → step s = .next t →
      State.placesOk t ∧ (State.places t).Nodup ∧ (t.part = .ready → ∀ f : Frame, 3 ≤ f.val → f ∈ State.places t)

/-- R142: the part state changes only along the rows of its table: to MOUNTING by a reset, a RESTART's clearing or the completion
of the format record strike; from MOUNTING by the end of a mount, to READY by the walk, to UNFORMATTED or FAULTED by the READ of
frame 0; to FORMATTING by the dispatch of FORMAT in READY, UNFORMATTED or FAULTED. (POWER_LOSS, which the table leaves to
power-on, shows MOUNTING at once: log entry 10. That READY is entered at a step on an empty queue is the model's choice: log
entries 5 and 23.) -/
def Obligations.PartStateFollowsItsTable : Prop :=
  ∀ s t : State,
    State.mountOk s → step s = .next t → t.part ≠ s.part →
      (s.part = .mounting ∧ t.link.mounted = true ∧
          (s.pending = [] ∧ t.part = .ready ∨
            s.pending.head? = some .readComplete ∧ (t.part = .unformatted ∨ t.part = .faulted))) ∨
        ∃ c : Instr,
          s.pending.head? = some c ∧
            ((t.part = .mounting ∧
                ((∃ cut, c = .powerOn cut ∨ c = .resetnAssertion cut ∨ c = .powerLoss cut ∨ c = .restart cut) ∨
                  c = .resetnRelease ∨ s.intake.restartPending = true ∨
                  ∃ stuck cmd f,
                    c = .strikeComplete stuck ∧ s.engine.job = some { cmd := cmd, step := .formatRecord f })) ∨
              (t.part = .formatting ∧ (s.part = .ready ∨ s.part = .unformatted ∨ s.part = .faulted) ∧
                ∃ cut, c = .format cut))

/-- R44, R42: once set, the epoch never decreases until a reset or RESTART returns it to unset, and nothing but SET EPOCH gives it
a value. (That POWER_LOSS shows it unset at once is log entry 10.) -/
def Obligations.EpochNeverDecreases : Prop :=
  ∀ s t : State,
    step s = .next t → t.engine.epoch ≠ s.engine.epoch →
      (∃ value : Word,
          s.pending.head? = some (.setEpoch value) ∧ t.engine.epoch = some value ∧
            ∀ e : Word, s.engine.epoch = some e → e.toNat ≤ value.toNat) ∨
        (t.engine.epoch = none ∧
          (s.intake.restartPending = true ∨
            ∃ cut : FrameBits,
              s.pending.head? = some (.powerOn cut) ∨ s.pending.head? = some (.resetnAssertion cut) ∨
                s.pending.head? = some (.powerLoss cut) ∨ s.pending.head? = some (.restart cut)))

/-- R94: a class policy, once SET, stays unchanged until the next FORMAT: outside a mount, and while no CONFIGURE CLASS of that
class is in progress (none of a SET class is ever begun, R96), only a reset or RESTART takes it from the working copy. (That
POWER_LOSS shows it so at once is log entry 10.) -/
def Obligations.SetPolicyStaysUntilFormat : Prop :=
  ∀ (s t : State) (k : ClassNo) (p : Policy),
    step s = .next t → s.policies[k] = .set p → s.mount.work = none →
      (∀ j, s.engine.job = some j → (∀ q, j.step ≠ .configureStrike k q) ∧ j.step ≠ .configureRead k) →
      (∀ cut, s.pending.head? ≠ some (.format cut)) →
      t.policies[k] = .set p ∨
        (t.policies[k] = .unconfigured ∧
          (s.intake.restartPending = true ∨
            ∃ cut : FrameBits,
              s.pending.head? = some (.powerOn cut) ∨ s.pending.head? = some (.resetnAssertion cut) ∨
                s.pending.head? = some (.powerLoss cut) ∨ s.pending.head? = some (.restart cut)))

/-- R20: between two erasures of a frame its phase only advances and the consumed count of each tally copy never decreases,
whatever step is made, a cut included. -/
def Obligations.RecordOnlyAdvances : Prop :=
  ∀ (s t : State) (f : Frame) (allowance : Nat),
    State.arrayOk s → step s = .next t → ¬ State.erasing s f → allowance ≤ 1024 →
      Phase.rank (phaseOf (Memory.image s.array f 0)) ≤ Phase.rank (phaseOf (Memory.image t.array f 0)) ∧
        consumed (Memory.image s.array f) tallyA allowance ≤ consumed (Memory.image t.array f) tallyA allowance ∧
        consumed (Memory.image s.array f) tallyB allowance ≤ consumed (Memory.image t.array f) tallyB allowance

/-- R137, R136, R135, R113: FAULT_EVENT is set by the failure of a STRIKE, or of a foreground ERASE at its retry, on frame 0, 1 or
2, and by nothing else; with no RESTART pending it stands after each such failure; it is cleared only by INFO, a reset or a
RESTART. (That POWER_LOSS shows it clear at once is log entry 10.) -/
def Obligations.FaultEventSetAndClearedByItsCauses : Prop :=
  ∀ s t : State,
    step s = .next t →
      let systemFailure : Prop :=
        (∃ (stuck : FrameBits) (f : Frame) (claimant : Claimant) (what : Strike),
            s.pending.head? = some (.strikeComplete stuck) ∧ s.ctrl.op = some (.strike f claimant what) ∧ f.val < 3 ∧
              Strike.verifies what (Memory.image (Memory.strike s.array f (Strike.intended what) stuck) f) = false) ∨
          ∃ (c : Instr) (e : Erase) (u : State),
            s.pending.head? = some c ∧ State.attemptFails s .foreground e c u ∧ e.attempt = .retry ∧ e.frame.val < 3
      (s.link.faultEvent = false → t.link.faultEvent = true → systemFailure) ∧
        (systemFailure → s.intake.restartPending = false → t.link.faultEvent = true) ∧
        (s.link.faultEvent = true → t.link.faultEvent = false →
          s.intake.restartPending = true ∨ s.pending.head? = some .info ∨
            ∃ cut : FrameBits,
              s.pending.head? = some (.powerOn cut) ∨ s.pending.head? = some (.resetnAssertion cut) ∨
                s.pending.head? = some (.powerLoss cut) ∨ s.pending.head? = some (.restart cut))
end

