-- ==== Sys2Proof/Laws/State.lean ====
section
/-! SUPPORT. One lemma per field for every named update of the state: what the update writes, and that it leaves every other
field as it was. -/

namespace Sys2Proof.Machine

set_option Elab.async false

/-! ### State.setTransaction -/

@[simp] theorem State.setTransaction_pins (s : State) (t : Option Transaction) :
    (State.setTransaction s t).pins = s.pins := rfl

@[simp] theorem State.setTransaction_part (s : State) (t : Option Transaction) :
    (State.setTransaction s t).part = s.part := rfl

@[simp] theorem State.setTransaction_link (s : State) (t : Option Transaction) :
    (State.setTransaction s t).link = { s.link with transaction := t } := rfl

@[simp] theorem State.setTransaction_intake (s : State) (t : Option Transaction) :
    (State.setTransaction s t).intake = s.intake := rfl

@[simp] theorem State.setTransaction_engine (s : State) (t : Option Transaction) :
    (State.setTransaction s t).engine = s.engine := rfl

@[simp] theorem State.setTransaction_index (s : State) (t : Option Transaction) :
    (State.setTransaction s t).index = s.index := rfl

@[simp] theorem State.setTransaction_policies (s : State) (t : Option Transaction) :
    (State.setTransaction s t).policies = s.policies := rfl

@[simp] theorem State.setTransaction_pools (s : State) (t : Option Transaction) :
    (State.setTransaction s t).pools = s.pools := rfl

@[simp] theorem State.setTransaction_ctrl (s : State) (t : Option Transaction) :
    (State.setTransaction s t).ctrl = s.ctrl := rfl

@[simp] theorem State.setTransaction_mount (s : State) (t : Option Transaction) :
    (State.setTransaction s t).mount = s.mount := rfl

@[simp] theorem State.setTransaction_array (s : State) (t : Option Transaction) :
    (State.setTransaction s t).array = s.array := rfl

@[simp] theorem State.setTransaction_pending (s : State) (t : Option Transaction) :
    (State.setTransaction s t).pending = s.pending := rfl

@[simp] theorem State.setTransaction_freeUses (s : State) (t : Option Transaction) :
    (State.setTransaction s t).freeUses = s.freeUses := rfl

/-! ### State.setFaultEvent -/

@[simp] theorem State.setFaultEvent_pins (s : State) : (State.setFaultEvent s).pins = s.pins := rfl

@[simp] theorem State.setFaultEvent_part (s : State) : (State.setFaultEvent s).part = s.part := rfl

@[simp] theorem State.setFaultEvent_link (s : State) :
    (State.setFaultEvent s).link = { s.link with faultEvent := true } := rfl

@[simp] theorem State.setFaultEvent_intake (s : State) : (State.setFaultEvent s).intake = s.intake := rfl

@[simp] theorem State.setFaultEvent_engine (s : State) : (State.setFaultEvent s).engine = s.engine := rfl

@[simp] theorem State.setFaultEvent_index (s : State) : (State.setFaultEvent s).index = s.index := rfl

@[simp] theorem State.setFaultEvent_policies (s : State) : (State.setFaultEvent s).policies = s.policies := rfl

@[simp] theorem State.setFaultEvent_pools (s : State) : (State.setFaultEvent s).pools = s.pools := rfl

@[simp] theorem State.setFaultEvent_ctrl (s : State) : (State.setFaultEvent s).ctrl = s.ctrl := rfl

@[simp] theorem State.setFaultEvent_mount (s : State) : (State.setFaultEvent s).mount = s.mount := rfl

@[simp] theorem State.setFaultEvent_array (s : State) : (State.setFaultEvent s).array = s.array := rfl

@[simp] theorem State.setFaultEvent_pending (s : State) : (State.setFaultEvent s).pending = s.pending := rfl

@[simp] theorem State.setFaultEvent_freeUses (s : State) : (State.setFaultEvent s).freeUses = s.freeUses := rfl

/-! ### State.setPools -/

@[simp] theorem State.setPools_pins (s : State) (p : FramePools) : (State.setPools s p).pins = s.pins := rfl

@[simp] theorem State.setPools_part (s : State) (p : FramePools) : (State.setPools s p).part = s.part := rfl

@[simp] theorem State.setPools_link (s : State) (p : FramePools) : (State.setPools s p).link = s.link := rfl

@[simp] theorem State.setPools_intake (s : State) (p : FramePools) : (State.setPools s p).intake = s.intake := rfl

@[simp] theorem State.setPools_engine (s : State) (p : FramePools) : (State.setPools s p).engine = s.engine := rfl

@[simp] theorem State.setPools_index (s : State) (p : FramePools) : (State.setPools s p).index = s.index := rfl

@[simp] theorem State.setPools_policies (s : State) (p : FramePools) :
    (State.setPools s p).policies = s.policies := rfl

@[simp] theorem State.setPools_pools (s : State) (p : FramePools) : (State.setPools s p).pools = p := rfl

@[simp] theorem State.setPools_ctrl (s : State) (p : FramePools) : (State.setPools s p).ctrl = s.ctrl := rfl

@[simp] theorem State.setPools_mount (s : State) (p : FramePools) : (State.setPools s p).mount = s.mount := rfl

@[simp] theorem State.setPools_array (s : State) (p : FramePools) : (State.setPools s p).array = s.array := rfl

@[simp] theorem State.setPools_pending (s : State) (p : FramePools) : (State.setPools s p).pending = s.pending := rfl

@[simp] theorem State.setPools_freeUses (s : State) (p : FramePools) :
    (State.setPools s p).freeUses = s.freeUses := rfl

/-! ### State.setIndex -/

@[simp] theorem State.setIndex_pins (s : State) (index : List Entry) : (State.setIndex s index).pins = s.pins := rfl

@[simp] theorem State.setIndex_part (s : State) (index : List Entry) : (State.setIndex s index).part = s.part := rfl

@[simp] theorem State.setIndex_link (s : State) (index : List Entry) : (State.setIndex s index).link = s.link := rfl

@[simp] theorem State.setIndex_intake (s : State) (index : List Entry) :
    (State.setIndex s index).intake = s.intake := rfl

@[simp] theorem State.setIndex_engine (s : State) (index : List Entry) :
    (State.setIndex s index).engine = s.engine := rfl

@[simp] theorem State.setIndex_index (s : State) (index : List Entry) : (State.setIndex s index).index = index := rfl

@[simp] theorem State.setIndex_policies (s : State) (index : List Entry) :
    (State.setIndex s index).policies = s.policies := rfl

@[simp] theorem State.setIndex_pools (s : State) (index : List Entry) :
    (State.setIndex s index).pools = s.pools := rfl

@[simp] theorem State.setIndex_ctrl (s : State) (index : List Entry) : (State.setIndex s index).ctrl = s.ctrl := rfl

@[simp] theorem State.setIndex_mount (s : State) (index : List Entry) :
    (State.setIndex s index).mount = s.mount := rfl

@[simp] theorem State.setIndex_array (s : State) (index : List Entry) :
    (State.setIndex s index).array = s.array := rfl

@[simp] theorem State.setIndex_pending (s : State) (index : List Entry) :
    (State.setIndex s index).pending = s.pending := rfl

@[simp] theorem State.setIndex_freeUses (s : State) (index : List Entry) :
    (State.setIndex s index).freeUses = s.freeUses := rfl

/-! ### State.setHeld -/

@[simp] theorem State.setHeld_pins (s : State) (held : Option Frame) : (State.setHeld s held).pins = s.pins := rfl

@[simp] theorem State.setHeld_part (s : State) (held : Option Frame) : (State.setHeld s held).part = s.part := rfl

@[simp] theorem State.setHeld_link (s : State) (held : Option Frame) : (State.setHeld s held).link = s.link := rfl

@[simp] theorem State.setHeld_intake (s : State) (held : Option Frame) :
    (State.setHeld s held).intake = s.intake := rfl

@[simp] theorem State.setHeld_engine (s : State) (held : Option Frame) :
    (State.setHeld s held).engine = { s.engine with held := held } := rfl

@[simp] theorem State.setHeld_index (s : State) (held : Option Frame) : (State.setHeld s held).index = s.index := rfl

@[simp] theorem State.setHeld_policies (s : State) (held : Option Frame) :
    (State.setHeld s held).policies = s.policies := rfl

@[simp] theorem State.setHeld_pools (s : State) (held : Option Frame) : (State.setHeld s held).pools = s.pools := rfl

@[simp] theorem State.setHeld_ctrl (s : State) (held : Option Frame) : (State.setHeld s held).ctrl = s.ctrl := rfl

@[simp] theorem State.setHeld_mount (s : State) (held : Option Frame) : (State.setHeld s held).mount = s.mount := rfl

@[simp] theorem State.setHeld_array (s : State) (held : Option Frame) : (State.setHeld s held).array = s.array := rfl

@[simp] theorem State.setHeld_pending (s : State) (held : Option Frame) :
    (State.setHeld s held).pending = s.pending := rfl

@[simp] theorem State.setHeld_freeUses (s : State) (held : Option Frame) :
    (State.setHeld s held).freeUses = s.freeUses := rfl

/-! ### State.setReport -/

@[simp] theorem State.setReport_pins (s : State) (r : MountReport) : (State.setReport s r).pins = s.pins := rfl

@[simp] theorem State.setReport_part (s : State) (r : MountReport) : (State.setReport s r).part = s.part := rfl

@[simp] theorem State.setReport_link (s : State) (r : MountReport) : (State.setReport s r).link = s.link := rfl

@[simp] theorem State.setReport_intake (s : State) (r : MountReport) : (State.setReport s r).intake = s.intake := rfl

@[simp] theorem State.setReport_engine (s : State) (r : MountReport) : (State.setReport s r).engine = s.engine := rfl

@[simp] theorem State.setReport_index (s : State) (r : MountReport) : (State.setReport s r).index = s.index := rfl

@[simp] theorem State.setReport_policies (s : State) (r : MountReport) :
    (State.setReport s r).policies = s.policies := rfl

@[simp] theorem State.setReport_pools (s : State) (r : MountReport) : (State.setReport s r).pools = s.pools := rfl

@[simp] theorem State.setReport_ctrl (s : State) (r : MountReport) : (State.setReport s r).ctrl = s.ctrl := rfl

@[simp] theorem State.setReport_mount (s : State) (r : MountReport) :
    (State.setReport s r).mount = { s.mount with report := r } := rfl

@[simp] theorem State.setReport_array (s : State) (r : MountReport) : (State.setReport s r).array = s.array := rfl

@[simp] theorem State.setReport_pending (s : State) (r : MountReport) :
    (State.setReport s r).pending = s.pending := rfl

@[simp] theorem State.setReport_freeUses (s : State) (r : MountReport) :
    (State.setReport s r).freeUses = s.freeUses := rfl

/-! ### State.setStatus -/

@[simp] theorem State.setStatus_pins (s : State) (k : ClassNo) (status : ClassStatus) :
    (State.setStatus s k status).pins = s.pins := rfl

@[simp] theorem State.setStatus_part (s : State) (k : ClassNo) (status : ClassStatus) :
    (State.setStatus s k status).part = s.part := rfl

@[simp] theorem State.setStatus_link (s : State) (k : ClassNo) (status : ClassStatus) :
    (State.setStatus s k status).link = s.link := rfl

@[simp] theorem State.setStatus_intake (s : State) (k : ClassNo) (status : ClassStatus) :
    (State.setStatus s k status).intake = s.intake := rfl

@[simp] theorem State.setStatus_engine (s : State) (k : ClassNo) (status : ClassStatus) :
    (State.setStatus s k status).engine = s.engine := rfl

@[simp] theorem State.setStatus_index (s : State) (k : ClassNo) (status : ClassStatus) :
    (State.setStatus s k status).index = s.index := rfl

@[simp] theorem State.setStatus_policies (s : State) (k : ClassNo) (status : ClassStatus) :
    (State.setStatus s k status).policies = setClass s.policies k status := rfl

@[simp] theorem State.setStatus_pools (s : State) (k : ClassNo) (status : ClassStatus) :
    (State.setStatus s k status).pools = s.pools := rfl

@[simp] theorem State.setStatus_ctrl (s : State) (k : ClassNo) (status : ClassStatus) :
    (State.setStatus s k status).ctrl = s.ctrl := rfl

@[simp] theorem State.setStatus_mount (s : State) (k : ClassNo) (status : ClassStatus) :
    (State.setStatus s k status).mount = s.mount := rfl

@[simp] theorem State.setStatus_array (s : State) (k : ClassNo) (status : ClassStatus) :
    (State.setStatus s k status).array = s.array := rfl

@[simp] theorem State.setStatus_pending (s : State) (k : ClassNo) (status : ClassStatus) :
    (State.setStatus s k status).pending = s.pending := rfl

@[simp] theorem State.setStatus_freeUses (s : State) (k : ClassNo) (status : ClassStatus) :
    (State.setStatus s k status).freeUses = s.freeUses := rfl

/-! ### State.clearOp -/

@[simp] theorem State.clearOp_pins (s : State) : (State.clearOp s).pins = s.pins := rfl

@[simp] theorem State.clearOp_part (s : State) : (State.clearOp s).part = s.part := rfl

@[simp] theorem State.clearOp_link (s : State) : (State.clearOp s).link = s.link := rfl

@[simp] theorem State.clearOp_intake (s : State) : (State.clearOp s).intake = s.intake := rfl

@[simp] theorem State.clearOp_engine (s : State) : (State.clearOp s).engine = s.engine := rfl

@[simp] theorem State.clearOp_index (s : State) : (State.clearOp s).index = s.index := rfl

@[simp] theorem State.clearOp_policies (s : State) : (State.clearOp s).policies = s.policies := rfl

@[simp] theorem State.clearOp_pools (s : State) : (State.clearOp s).pools = s.pools := rfl

@[simp] theorem State.clearOp_ctrl (s : State) : (State.clearOp s).ctrl = { s.ctrl with op := none } := rfl

@[simp] theorem State.clearOp_mount (s : State) : (State.clearOp s).mount = s.mount := rfl

@[simp] theorem State.clearOp_array (s : State) : (State.clearOp s).array = s.array := rfl

@[simp] theorem State.clearOp_pending (s : State) : (State.clearOp s).pending = s.pending := rfl

@[simp] theorem State.clearOp_freeUses (s : State) : (State.clearOp s).freeUses = s.freeUses := rfl

/-! ### State.setOp -/

@[simp] theorem State.setOp_pins (s : State) (op : Op) : (State.setOp s op).pins = s.pins := rfl

@[simp] theorem State.setOp_part (s : State) (op : Op) : (State.setOp s op).part = s.part := rfl

@[simp] theorem State.setOp_link (s : State) (op : Op) : (State.setOp s op).link = s.link := rfl

@[simp] theorem State.setOp_intake (s : State) (op : Op) : (State.setOp s op).intake = s.intake := rfl

@[simp] theorem State.setOp_engine (s : State) (op : Op) : (State.setOp s op).engine = s.engine := rfl

@[simp] theorem State.setOp_index (s : State) (op : Op) : (State.setOp s op).index = s.index := rfl

@[simp] theorem State.setOp_policies (s : State) (op : Op) : (State.setOp s op).policies = s.policies := rfl

@[simp] theorem State.setOp_pools (s : State) (op : Op) : (State.setOp s op).pools = s.pools := rfl

@[simp] theorem State.setOp_ctrl (s : State) (op : Op) :
    (State.setOp s op).ctrl = { s.ctrl with op := some op } := rfl

@[simp] theorem State.setOp_mount (s : State) (op : Op) : (State.setOp s op).mount = s.mount := rfl

@[simp] theorem State.setOp_array (s : State) (op : Op) : (State.setOp s op).array = s.array := rfl

@[simp] theorem State.setOp_pending (s : State) (op : Op) : (State.setOp s op).pending = s.pending := rfl

@[simp] theorem State.setOp_freeUses (s : State) (op : Op) : (State.setOp s op).freeUses = s.freeUses := rfl

/-! ### State.setArray -/

@[simp] theorem State.setArray_pins (s : State) (m : Memory) : (State.setArray s m).pins = s.pins := rfl

@[simp] theorem State.setArray_part (s : State) (m : Memory) : (State.setArray s m).part = s.part := rfl

@[simp] theorem State.setArray_link (s : State) (m : Memory) : (State.setArray s m).link = s.link := rfl

@[simp] theorem State.setArray_intake (s : State) (m : Memory) : (State.setArray s m).intake = s.intake := rfl

@[simp] theorem State.setArray_engine (s : State) (m : Memory) : (State.setArray s m).engine = s.engine := rfl

@[simp] theorem State.setArray_index (s : State) (m : Memory) : (State.setArray s m).index = s.index := rfl

@[simp] theorem State.setArray_policies (s : State) (m : Memory) : (State.setArray s m).policies = s.policies := rfl

@[simp] theorem State.setArray_pools (s : State) (m : Memory) : (State.setArray s m).pools = s.pools := rfl

@[simp] theorem State.setArray_ctrl (s : State) (m : Memory) : (State.setArray s m).ctrl = s.ctrl := rfl

@[simp] theorem State.setArray_mount (s : State) (m : Memory) : (State.setArray s m).mount = s.mount := rfl

@[simp] theorem State.setArray_array (s : State) (m : Memory) : (State.setArray s m).array = m := rfl

@[simp] theorem State.setArray_pending (s : State) (m : Memory) : (State.setArray s m).pending = s.pending := rfl

@[simp] theorem State.setArray_freeUses (s : State) (m : Memory) : (State.setArray s m).freeUses = s.freeUses := rfl

/-! ### State.goStep -/

@[simp] theorem State.goStep_pins (s : State) (cmd : Command) (step : EngineStep) :
    (State.goStep s cmd step).pins = s.pins := rfl

@[simp] theorem State.goStep_part (s : State) (cmd : Command) (step : EngineStep) :
    (State.goStep s cmd step).part = s.part := rfl

@[simp] theorem State.goStep_link (s : State) (cmd : Command) (step : EngineStep) :
    (State.goStep s cmd step).link = s.link := rfl

@[simp] theorem State.goStep_intake (s : State) (cmd : Command) (step : EngineStep) :
    (State.goStep s cmd step).intake = s.intake := rfl

@[simp] theorem State.goStep_engine (s : State) (cmd : Command) (step : EngineStep) :
    (State.goStep s cmd step).engine = { s.engine with job := some { cmd := cmd, step := step } } := rfl

@[simp] theorem State.goStep_index (s : State) (cmd : Command) (step : EngineStep) :
    (State.goStep s cmd step).index = s.index := rfl

@[simp] theorem State.goStep_policies (s : State) (cmd : Command) (step : EngineStep) :
    (State.goStep s cmd step).policies = s.policies := rfl

@[simp] theorem State.goStep_pools (s : State) (cmd : Command) (step : EngineStep) :
    (State.goStep s cmd step).pools = s.pools := rfl

@[simp] theorem State.goStep_ctrl (s : State) (cmd : Command) (step : EngineStep) :
    (State.goStep s cmd step).ctrl = s.ctrl := rfl

@[simp] theorem State.goStep_mount (s : State) (cmd : Command) (step : EngineStep) :
    (State.goStep s cmd step).mount = s.mount := rfl

@[simp] theorem State.goStep_array (s : State) (cmd : Command) (step : EngineStep) :
    (State.goStep s cmd step).array = s.array := rfl

@[simp] theorem State.goStep_pending (s : State) (cmd : Command) (step : EngineStep) :
    (State.goStep s cmd step).pending = s.pending := rfl

@[simp] theorem State.goStep_freeUses (s : State) (cmd : Command) (step : EngineStep) :
    (State.goStep s cmd step).freeUses = s.freeUses := rfl

/-! ### State.claim -/

@[simp] theorem State.claim_pins (s : State) (k : Claim) : (State.claim s k).pins = s.pins := rfl

@[simp] theorem State.claim_part (s : State) (k : Claim) : (State.claim s k).part = s.part := rfl

@[simp] theorem State.claim_link (s : State) (k : Claim) : (State.claim s k).link = s.link := rfl

@[simp] theorem State.claim_intake (s : State) (k : Claim) : (State.claim s k).intake = s.intake := rfl

@[simp] theorem State.claim_engine (s : State) (k : Claim) : (State.claim s k).engine = s.engine := rfl

@[simp] theorem State.claim_index (s : State) (k : Claim) : (State.claim s k).index = s.index := rfl

@[simp] theorem State.claim_policies (s : State) (k : Claim) : (State.claim s k).policies = s.policies := rfl

@[simp] theorem State.claim_pools (s : State) (k : Claim) : (State.claim s k).pools = s.pools := rfl

@[simp] theorem State.claim_ctrl (s : State) (k : Claim) : (State.claim s k).ctrl = Controller.claim s.ctrl k := rfl

@[simp] theorem State.claim_mount (s : State) (k : Claim) : (State.claim s k).mount = s.mount := rfl

@[simp] theorem State.claim_array (s : State) (k : Claim) : (State.claim s k).array = s.array := rfl

@[simp] theorem State.claim_pending (s : State) (k : Claim) : (State.claim s k).pending = s.pending := rfl

@[simp] theorem State.claim_freeUses (s : State) (k : Claim) : (State.claim s k).freeUses = s.freeUses := rfl

/-! ### State.claimStep -/

@[simp] theorem State.claimStep_pins (s : State) (cmd : Command) (step : EngineStep) (k : Claim) :
    (State.claimStep s cmd step k).pins = s.pins := rfl

@[simp] theorem State.claimStep_part (s : State) (cmd : Command) (step : EngineStep) (k : Claim) :
    (State.claimStep s cmd step k).part = s.part := rfl

@[simp] theorem State.claimStep_link (s : State) (cmd : Command) (step : EngineStep) (k : Claim) :
    (State.claimStep s cmd step k).link = s.link := rfl

@[simp] theorem State.claimStep_intake (s : State) (cmd : Command) (step : EngineStep) (k : Claim) :
    (State.claimStep s cmd step k).intake = s.intake := rfl

@[simp] theorem State.claimStep_engine (s : State) (cmd : Command) (step : EngineStep) (k : Claim) :
    (State.claimStep s cmd step k).engine = { s.engine with job := some { cmd := cmd, step := step } } := rfl

@[simp] theorem State.claimStep_index (s : State) (cmd : Command) (step : EngineStep) (k : Claim) :
    (State.claimStep s cmd step k).index = s.index := rfl

@[simp] theorem State.claimStep_policies (s : State) (cmd : Command) (step : EngineStep) (k : Claim) :
    (State.claimStep s cmd step k).policies = s.policies := rfl

@[simp] theorem State.claimStep_pools (s : State) (cmd : Command) (step : EngineStep) (k : Claim) :
    (State.claimStep s cmd step k).pools = s.pools := rfl

@[simp] theorem State.claimStep_ctrl (s : State) (cmd : Command) (step : EngineStep) (k : Claim) :
    (State.claimStep s cmd step k).ctrl = Controller.claim s.ctrl k := rfl

@[simp] theorem State.claimStep_mount (s : State) (cmd : Command) (step : EngineStep) (k : Claim) :
    (State.claimStep s cmd step k).mount = s.mount := rfl

@[simp] theorem State.claimStep_array (s : State) (cmd : Command) (step : EngineStep) (k : Claim) :
    (State.claimStep s cmd step k).array = s.array := rfl

@[simp] theorem State.claimStep_pending (s : State) (cmd : Command) (step : EngineStep) (k : Claim) :
    (State.claimStep s cmd step k).pending = s.pending := rfl

@[simp] theorem State.claimStep_freeUses (s : State) (cmd : Command) (step : EngineStep) (k : Claim) :
    (State.claimStep s cmd step k).freeUses = s.freeUses := rfl

/-! ### State.mountClaim -/

@[simp] theorem State.mountClaim_pins (s : State) (w : MountWork) (k : Claim) :
    (State.mountClaim s w k).pins = s.pins := rfl

@[simp] theorem State.mountClaim_part (s : State) (w : MountWork) (k : Claim) :
    (State.mountClaim s w k).part = s.part := rfl

@[simp] theorem State.mountClaim_link (s : State) (w : MountWork) (k : Claim) :
    (State.mountClaim s w k).link = s.link := rfl

@[simp] theorem State.mountClaim_intake (s : State) (w : MountWork) (k : Claim) :
    (State.mountClaim s w k).intake = s.intake := rfl

@[simp] theorem State.mountClaim_engine (s : State) (w : MountWork) (k : Claim) :
    (State.mountClaim s w k).engine = s.engine := rfl

@[simp] theorem State.mountClaim_index (s : State) (w : MountWork) (k : Claim) :
    (State.mountClaim s w k).index = s.index := rfl

@[simp] theorem State.mountClaim_policies (s : State) (w : MountWork) (k : Claim) :
    (State.mountClaim s w k).policies = s.policies := rfl

@[simp] theorem State.mountClaim_pools (s : State) (w : MountWork) (k : Claim) :
    (State.mountClaim s w k).pools = s.pools := rfl

@[simp] theorem State.mountClaim_ctrl (s : State) (w : MountWork) (k : Claim) :
    (State.mountClaim s w k).ctrl = Controller.claim s.ctrl k := rfl

@[simp] theorem State.mountClaim_mount (s : State) (w : MountWork) (k : Claim) :
    (State.mountClaim s w k).mount = { s.mount with work := some w } := rfl

@[simp] theorem State.mountClaim_array (s : State) (w : MountWork) (k : Claim) :
    (State.mountClaim s w k).array = s.array := rfl

@[simp] theorem State.mountClaim_pending (s : State) (w : MountWork) (k : Claim) :
    (State.mountClaim s w k).pending = s.pending := rfl

@[simp] theorem State.mountClaim_freeUses (s : State) (w : MountWork) (k : Claim) :
    (State.mountClaim s w k).freeUses = s.freeUses := rfl

/-! ### State.accept -/

@[simp] theorem State.accept_pins (s : State) (cmd : Command) : (State.accept s cmd).pins = s.pins := rfl

@[simp] theorem State.accept_part (s : State) (cmd : Command) : (State.accept s cmd).part = s.part := rfl

@[simp] theorem State.accept_link (s : State) (cmd : Command) : (State.accept s cmd).link = s.link := rfl

@[simp] theorem State.accept_intake (s : State) (cmd : Command) :
    (State.accept s cmd).intake = { s.intake with waiting := s.intake.waiting ++ [cmd] } := rfl

@[simp] theorem State.accept_engine (s : State) (cmd : Command) : (State.accept s cmd).engine = s.engine := rfl

@[simp] theorem State.accept_index (s : State) (cmd : Command) : (State.accept s cmd).index = s.index := rfl

@[simp] theorem State.accept_policies (s : State) (cmd : Command) : (State.accept s cmd).policies = s.policies := rfl

@[simp] theorem State.accept_pools (s : State) (cmd : Command) : (State.accept s cmd).pools = s.pools := rfl

@[simp] theorem State.accept_ctrl (s : State) (cmd : Command) : (State.accept s cmd).ctrl = s.ctrl := rfl

@[simp] theorem State.accept_mount (s : State) (cmd : Command) : (State.accept s cmd).mount = s.mount := rfl

@[simp] theorem State.accept_array (s : State) (cmd : Command) : (State.accept s cmd).array = s.array := rfl

@[simp] theorem State.accept_pending (s : State) (cmd : Command) : (State.accept s cmd).pending = s.pending := rfl

@[simp] theorem State.accept_freeUses (s : State) (cmd : Command) : (State.accept s cmd).freeUses = s.freeUses := rfl

/-! ### State.headLeft -/

@[simp] theorem State.headLeft_pins (s : State) (rest : List Command) : (State.headLeft s rest).pins = s.pins := rfl

@[simp] theorem State.headLeft_part (s : State) (rest : List Command) : (State.headLeft s rest).part = s.part := rfl

@[simp] theorem State.headLeft_link (s : State) (rest : List Command) : (State.headLeft s rest).link = s.link := rfl

@[simp] theorem State.headLeft_intake (s : State) (rest : List Command) :
    (State.headLeft s rest).intake = { s.intake with waiting := rest } := rfl

@[simp] theorem State.headLeft_engine (s : State) (rest : List Command) :
    (State.headLeft s rest).engine = s.engine := rfl

@[simp] theorem State.headLeft_index (s : State) (rest : List Command) :
    (State.headLeft s rest).index = s.index := rfl

@[simp] theorem State.headLeft_policies (s : State) (rest : List Command) :
    (State.headLeft s rest).policies = s.policies := rfl

@[simp] theorem State.headLeft_pools (s : State) (rest : List Command) :
    (State.headLeft s rest).pools = s.pools := rfl

@[simp] theorem State.headLeft_ctrl (s : State) (rest : List Command) : (State.headLeft s rest).ctrl = s.ctrl := rfl

@[simp] theorem State.headLeft_mount (s : State) (rest : List Command) :
    (State.headLeft s rest).mount = s.mount := rfl

@[simp] theorem State.headLeft_array (s : State) (rest : List Command) :
    (State.headLeft s rest).array = s.array := rfl

@[simp] theorem State.headLeft_pending (s : State) (rest : List Command) :
    (State.headLeft s rest).pending = s.pending := rfl

@[simp] theorem State.headLeft_freeUses (s : State) (rest : List Command) :
    (State.headLeft s rest).freeUses = s.freeUses := rfl

/-! ### State.beginMount -/

@[simp] theorem State.beginMount_pins (s : State) : (State.beginMount s).pins = s.pins := rfl

@[simp] theorem State.beginMount_part (s : State) : (State.beginMount s).part = .mounting := rfl

@[simp] theorem State.beginMount_link (s : State) : (State.beginMount s).link = s.link := rfl

@[simp] theorem State.beginMount_intake (s : State) : (State.beginMount s).intake = s.intake := rfl

@[simp] theorem State.beginMount_engine (s : State) : (State.beginMount s).engine = s.engine := rfl

@[simp] theorem State.beginMount_index (s : State) : (State.beginMount s).index = s.index := rfl

@[simp] theorem State.beginMount_policies (s : State) : (State.beginMount s).policies = s.policies := rfl

@[simp] theorem State.beginMount_pools (s : State) : (State.beginMount s).pools = s.pools := rfl

@[simp] theorem State.beginMount_ctrl (s : State) :
    (State.beginMount s).ctrl = Controller.claim s.ctrl (.read 0) := rfl

@[simp] theorem State.beginMount_mount (s : State) :
    (State.beginMount s).mount =
      { s.mount with work := some { step := .readFormat, scanned := [] }, report := MountReport.zero } := rfl

@[simp] theorem State.beginMount_array (s : State) : (State.beginMount s).array = s.array := rfl

@[simp] theorem State.beginMount_pending (s : State) : (State.beginMount s).pending = s.pending := rfl

@[simp] theorem State.beginMount_freeUses (s : State) : (State.beginMount s).freeUses = s.freeUses := rfl

/-! ### State.beginWalk -/

@[simp] theorem State.beginWalk_pins (s : State) (w : MountWork) : (State.beginWalk s w).pins = s.pins := rfl

@[simp] theorem State.beginWalk_part (s : State) (w : MountWork) : (State.beginWalk s w).part = s.part := rfl

@[simp] theorem State.beginWalk_link (s : State) (w : MountWork) : (State.beginWalk s w).link = s.link := rfl

@[simp] theorem State.beginWalk_intake (s : State) (w : MountWork) : (State.beginWalk s w).intake = s.intake := rfl

@[simp] theorem State.beginWalk_engine (s : State) (w : MountWork) : (State.beginWalk s w).engine = s.engine := rfl

@[simp] theorem State.beginWalk_index (s : State) (w : MountWork) : (State.beginWalk s w).index = s.index := rfl

@[simp] theorem State.beginWalk_policies (s : State) (w : MountWork) :
    (State.beginWalk s w).policies = s.policies := rfl

@[simp] theorem State.beginWalk_pools (s : State) (w : MountWork) : (State.beginWalk s w).pools = s.pools := rfl

@[simp] theorem State.beginWalk_ctrl (s : State) (w : MountWork) : (State.beginWalk s w).ctrl = s.ctrl := rfl

@[simp] theorem State.beginWalk_mount (s : State) (w : MountWork) :
    (State.beginWalk s w).mount = { s.mount with work := some { w with step := .walk } } := rfl

@[simp] theorem State.beginWalk_array (s : State) (w : MountWork) : (State.beginWalk s w).array = s.array := rfl

@[simp] theorem State.beginWalk_pending (s : State) (w : MountWork) : (State.beginWalk s w).pending = s.pending := rfl

@[simp] theorem State.beginWalk_freeUses (s : State) (w : MountWork) :
    (State.beginWalk s w).freeUses = s.freeUses := rfl

end Sys2Proof.Machine
end

