-- ==== Sys2Proof/Laws/Continuations.lean ====
section
/-! SUPPORT. No continuation of a command or a mount changes the frame array: only the completion of a STRIKE, the stages of an
ERASE and a cut do (R106). -/

namespace Sys2Proof.Machine

set_option Elab.async false

@[simp] theorem State.clearForRestart_array (s : State) : (State.clearForRestart s).array = s.array := rfl

@[simp] theorem State.post_array (s : State) (cmd : Command) (r : Result) :
    (State.post s cmd r).array = s.array := by
  unfold State.post
  split <;> simp

@[simp] theorem State.writeInto_array (s : State) (cmd : Command) (w : Writing) (f : Frame) :
    (State.writeInto s cmd w f).array = s.array := rfl

@[simp] theorem State.takeFails_array (s : State) (cmd : Command) (w : Writing) :
    (State.takeFails s cmd w).array = s.array := by
  simp [State.takeFails]

@[simp] theorem State.demandNext_array (s : State) (cmd : Command) (w : Writing) :
    (State.demandNext s cmd w).array = s.array := by
  unfold State.demandNext
  split <;> simp

@[simp] theorem State.demandReclaim_array (s : State) (cmd : Command) (w : Writing) :
    (State.demandReclaim s cmd w).array = s.array := by
  unfold State.demandReclaim
  split <;> simp

@[simp] theorem State.take_array (s : State) (cmd : Command) (w : Writing) :
    (State.take s cmd w).array = s.array := by
  unfold State.take
  split <;> simp

@[simp] theorem State.newFrameFailed_array (s : State) (cmd : Command) (w : Writing) (f : Frame) :
    (State.newFrameFailed s cmd w f).array = s.array := rfl

@[simp] theorem State.newFrameReleased_array (s : State) (cmd : Command) (w : Writing) (f : Frame) (v : Bool) :
    (State.newFrameReleased s cmd w f v).array = s.array := by
  unfold State.newFrameReleased
  dsimp only
  split <;> simp

@[simp] theorem State.newFrameLive_array (s : State) (cmd : Command) (w : Writing) (f : Frame) :
    (State.newFrameLive s cmd w f).array = s.array := by
  unfold State.newFrameLive
  split <;> simp

@[simp] theorem State.fallback_array (s : State) (cmd : Command) (f : Frame) (r r' : Result) :
    (State.fallback s cmd f r r').array = s.array := rfl

@[simp] theorem State.movedDone_array (s : State) (cmd : Command) (w : Writing) (o : OldGrant) (f : Frame) (v : Bool) :
    (State.movedDone s cmd w o f v).array = s.array := by
  unfold State.movedDone
  split <;> simp

@[simp] theorem State.retiredDone_array (s : State) (cmd : Command) (e : Ending) (f : Frame) (v : Bool) :
    (State.retiredDone s cmd e f v).array = s.array := by
  unfold State.retiredDone
  split <;> simp

@[simp] theorem State.retire_array (s : State) (cmd : Command) (e : Ending) (f : Frame) (b : Byte) :
    (State.retire s cmd e f b).array = s.array := by
  unfold State.retire
  split <;> simp

@[simp] theorem State.formatRecordStrike_array (s : State) (cmd : Command) (f : Formatting) :
    (State.formatRecordStrike s cmd f).array = s.array := rfl

@[simp] theorem State.formatSweep_array (s : State) (cmd : Command) (f : Formatting) (n : Nat) :
    (State.formatSweep s cmd f n).array = s.array := by
  unfold State.formatSweep
  split <;> simp

@[simp] theorem State.formatErased_array (s : State) (cmd : Command) (f : Formatting) (g : Frame) (v : Bool) :
    (State.formatErased s cmd f g v).array = s.array := by
  unfold State.formatErased
  repeat' split
  all_goals simp

@[simp] theorem State.formatMarked_array (s : State) (cmd : Command) (f : Formatting) (g : Frame) (v : Bool) :
    (State.formatMarked s cmd f g v).array = s.array := by
  unfold State.formatMarked
  split <;> simp

@[simp] theorem State.formatWritten_array (s : State) (cmd : Command) (f : Formatting) (v : Bool) :
    (State.formatWritten s cmd f v).array = s.array := by
  unfold State.formatWritten
  split <;> simp

@[simp] theorem State.markCorrupt_array (s : State) (e : Entry) (img : Image) :
    (State.markCorrupt s e img).array = s.array := rfl

@[simp] theorem State.lookupRead_array (s : State) (cmd : Command) (snap : Snapshot) (e : Entry) (f : Frame) (img : Image) :
    (State.lookupRead s cmd snap e f img).array = s.array := by
  unfold State.lookupRead
  split <;> simp

@[simp] theorem State.drawRead_array (s : State) (cmd : Command) (snap : Snapshot) (e : Entry) (f : Frame) (img : Image) :
    (State.drawRead s cmd snap e f img).array = s.array := by
  unfold State.drawRead
  dsimp only
  repeat' split
  all_goals simp

@[simp] theorem State.drawStruckA_array (s : State) (cmd : Command) (d : Drawing) (e : Entry) (f : Frame) (v : Bool) :
    (State.drawStruckA s cmd d e f v).array = s.array := rfl

@[simp] theorem State.drawStruckB_array (s : State) (cmd : Command) (d : Drawing) (e : Entry) (u : Bool) (f : Frame) (v : Bool) :
    (State.drawStruckB s cmd d e u f v).array = s.array := by
  unfold State.drawStruckB
  repeat' split
  all_goals simp

@[simp] theorem State.drawReadBack_array (s : State) (cmd : Command) (d : Drawing) (e : Entry) (img : Image) :
    (State.drawReadBack s cmd d e img).array = s.array := by
  unfold State.drawReadBack
  split <;> simp

@[simp] theorem State.relocationCorrupt_array (s : State) (cmd : Command) (e : Entry) (img : Image) :
    (State.relocationCorrupt s cmd e img).array = s.array := by
  simp [State.relocationCorrupt]

@[simp] theorem State.topupRead_array (s : State) (cmd : Command) (snap : Snapshot) (e : Entry) (f : Frame) (img : Image) :
    (State.topupRead s cmd snap e f img).array = s.array := by
  unfold State.topupRead
  dsimp only
  repeat' split
  all_goals simp

@[simp] theorem State.moveRead_array (s : State) (cmd : Command) (e : Entry) (f : Frame) (img : Image) :
    (State.moveRead s cmd e f img).array = s.array := by
  unfold State.moveRead
  dsimp only
  repeat' split
  all_goals simp

@[simp] theorem State.revokeRead_array (s : State) (cmd : Command) (snap : Snapshot) (e : Entry) (f : Frame) (img : Image) :
    (State.revokeRead s cmd snap e f img).array = s.array := by
  unfold State.revokeRead
  dsimp only
  repeat' split
  all_goals simp

@[simp] theorem State.configureStruck_array (s : State) (cmd : Command) (k : ClassNo) (p : Policy) (v : Bool) :
    (State.configureStruck s cmd k p v).array = s.array := by
  unfold State.configureStruck
  split <;> simp

@[simp] theorem State.configureRead_array (s : State) (cmd : Command) (k : ClassNo) (img : Image) :
    (State.configureRead s cmd k img).array = s.array := by
  simp [State.configureRead]

@[simp] theorem State.purgeNext_array (s : State) (cmd : Command) (members : List Frame) (moved failed : Nat) :
    (State.purgeNext s cmd members moved failed).array = s.array := by
  unfold State.purgeNext
  split <;> simp

@[simp] theorem State.purgeStruck_array (s : State) (cmd : Command) (f : Frame) (rest : List Frame) (moved failed : Nat) (v : Bool) :
    (State.purgeStruck s cmd f rest moved failed v).array = s.array := by
  simp [State.purgeStruck]

@[simp] theorem State.demandErased_array (s : State) (cmd : Command) (w : Writing) (f : Frame) (v : Bool) :
    (State.demandErased s cmd w f v).array = s.array := by
  unfold State.demandErased
  split <;> simp

@[simp] theorem State.demandMarked_array (s : State) (cmd : Command) (w : Writing) (f : Frame) (v : Bool) :
    (State.demandMarked s cmd w f v).array = s.array := by
  simp [State.demandMarked]

@[simp] theorem State.fallbackErased_array (s : State) (cmd : Command) (r r' : Result) (f : Frame) (v : Bool) :
    (State.fallbackErased s cmd r r' f v).array = s.array := by
  unfold State.fallbackErased
  split <;> simp

@[simp] theorem State.fallbackMarked_array (s : State) (cmd : Command) (r r' : Result) (f : Frame) (v : Bool) :
    (State.fallbackMarked s cmd r r' f v).array = s.array := by
  simp [State.fallbackMarked]

@[simp] theorem State.engineRead_array (s : State) (j : Job) (f : Frame) (img : Image) :
    (State.engineRead s j f img).array = s.array := by
  unfold State.engineRead
  split <;> simp

@[simp] theorem State.engineStruck_array (s : State) (j : Job) (f : Frame) (v : Bool) :
    (State.engineStruck s j f v).array = s.array := by
  unfold State.engineStruck
  repeat' split
  all_goals simp

@[simp] theorem State.engineErased_array (s : State) (j : Job) (f : Frame) (v : Bool) :
    (State.engineErased s j f v).array = s.array := by
  unfold State.engineErased
  split <;> simp

@[simp] theorem State.serveWaiting_array (s : State) :
    (State.serveWaiting s).array = s.array := by
  unfold State.serveWaiting
  dsimp only
  repeat' split
  all_goals simp

@[simp] theorem State.mountEnds_array (s : State) (part : PartState) :
    (State.mountEnds s part).array = s.array := by
  unfold State.mountEnds
  dsimp only
  split <;> simp

@[simp] theorem State.placeFrame_array (s : State) (q : Frame × Placement) :
    (State.placeFrame s q).array = s.array := by
  unfold State.placeFrame
  repeat' split
  all_goals simp

@[simp] theorem State.walkOn_array (s : State) (w : MountWork) : (State.walkOn s w).array = s.array := by
  unfold State.walkOn
  split <;> simp

@[simp] theorem State.tick_array (s : State) : (State.tick s).array = s.array := by
  unfold State.tick
  repeat' split
  all_goals simp

@[simp] theorem State.resolve_array (s : State) (w : MountWork) (todo winners : List Candidate) :
    (State.resolve s w todo winners).array = s.array := by
  induction todo generalizing winners with
  | nil => simp [State.resolve]
  | cons q todo ih =>
    unfold State.resolve
    split
    · exact ih _
    · simp

@[simp] theorem State.scanFrom_array (s : State) (w : MountWork) (n : Nat) :
    (State.scanFrom s w n).array = s.array := by
  unfold State.scanFrom
  split <;> simp

@[simp] theorem State.scanned_array (s : State) (w : MountWork) (f : Frame) (found : Scanned) :
    (State.scanned s w f found).array = s.array := by
  unfold State.scanned
  split <;> simp

@[simp] theorem State.scanRead_array (s : State) (w : MountWork) (f : Frame) (img : Image) :
    (State.scanRead s w f img).array = s.array := by
  unfold State.scanRead
  repeat' split
  all_goals simp

@[simp] theorem State.mountFormat_array (s : State) (w : MountWork) (img : Image) :
    (State.mountFormat s w img).array = s.array := by
  unfold State.mountFormat
  repeat' split
  all_goals simp

@[simp] theorem State.mountMap_array (s : State) (w : MountWork) (img : Image) :
    (State.mountMap s w img).array = s.array := by
  simp [State.mountMap]

@[simp] theorem State.mountPolicies_array (s : State) (w : MountWork) (img : Image) :
    (State.mountPolicies s w img).array = s.array := by
  simp [State.mountPolicies]

@[simp] theorem State.mountGoesOn_array (s : State) (w : MountWork) (f : Frame) (next : MountNext) :
    (State.mountGoesOn s w f next).array = s.array := by
  unfold State.mountGoesOn
  split <;> simp

@[simp] theorem State.mountRead_array (s : State) (w : MountWork) (f : Frame) (img : Image) :
    (State.mountRead s w f img).array = s.array := by
  unfold State.mountRead
  split <;> simp

@[simp] theorem State.mountFallback_array (s : State) (w : MountWork) (f : Frame) (next : MountNext) :
    (State.mountFallback s w f next).array = s.array := rfl

@[simp] theorem State.mountStruck_array (s : State) (w : MountWork) (f : Frame) (v : Bool) :
    (State.mountStruck s w f v).array = s.array := by
  unfold State.mountStruck
  repeat' split
  all_goals simp

@[simp] theorem State.mountErased_array (s : State) (w : MountWork) (f : Frame) (v : Bool) :
    (State.mountErased s w f v).array = s.array := by
  unfold State.mountErased
  repeat' split
  all_goals simp

@[simp] theorem State.reportRead_array (s : State) (f : Frame) (img : Image) :
    (State.reportRead s f img).array = s.array := by
  unfold State.reportRead
  split <;> simp

@[simp] theorem State.reportStrike_array (s : State) (f : Frame) (v : Bool) :
    (State.reportStrike s f v).array = s.array := by
  unfold State.reportStrike
  split <;> simp

@[simp] theorem State.reportErase_array (s : State) (f : Frame) (v : Bool) :
    (State.reportErase s f v).array = s.array := by
  unfold State.reportErase
  split <;> simp

@[simp] theorem State.systemFailure_array (s : State) (f : Frame) (v : Bool) :
    (State.systemFailure s f v).array = s.array := by
  unfold State.systemFailure
  split <;> simp

@[simp] theorem State.backgroundMarked_array (s : State) (v : Bool) :
    (State.backgroundMarked s v).array = s.array := by
  unfold State.backgroundMarked
  split <;> simp

@[simp] theorem State.eraseVerified_array (s : State) (c : Claimant) (f : Frame) :
    (State.eraseVerified s c f).array = s.array := by
  unfold State.eraseVerified
  split <;> simp

@[simp] theorem State.eraseFailed_array (s : State) (c : Claimant) (f : Frame) :
    (State.eraseFailed s c f).array = s.array := by
  unfold State.eraseFailed
  split <;> simp

@[simp] theorem State.attemptFailed_array (s : State) (c : Claimant) (e : Erase) :
    (State.attemptFailed s c e).array = s.array := by
  unfold State.attemptFailed
  repeat' split
  all_goals simp

end Sys2Proof.Machine
end

