-- ==== Sys2Proof/Laws/Memory.lean ====
section
/-! SUPPORT. The frame array: a read after a write, and that every operation on the array keeps its canonical form. -/

namespace Sys2Proof.Machine

set_option Elab.async false

/-! ### The canonical form, said by membership and order -/

/-- The canonical form: every listed byte lies in the array and is not blank, and addresses strictly rise. -/
theorem Memory.wf_iff (m : Memory) :
    Memory.wf m = true ↔
      (∀ p ∈ m, p.1 < 1048576 ∧ p.2 ≠ 0xFF) ∧ m.Pairwise fun p q => p.1 < q.1 := by
  induction m with
  | nil => simp [Memory.wf]
  | cons p m ih =>
    obtain ⟨k, b⟩ := p
    cases m with
    | nil => simp [Memory.wf]
    | cons q m =>
      obtain ⟨l, c⟩ := q
      simp only [Memory.wf, Bool.and_eq_true, decide_eq_true_eq, ih, List.pairwise_cons, List.mem_cons, forall_eq_or_imp]
      constructor
      · rintro ⟨⟨hk, hb⟩, ⟨⟨hl, hc⟩, hall⟩, hlt, hp⟩
        exact ⟨⟨⟨Nat.lt_trans hk hl, hb⟩, ⟨hl, hc⟩, hall⟩, ⟨hk, fun q hq => Nat.lt_trans hk (hlt q hq)⟩, hlt, hp⟩
      · rintro ⟨⟨⟨_, hb⟩, hlc, hall⟩, ⟨hk, _⟩, hlt, hp⟩
        exact ⟨⟨hk, hb⟩, ⟨hlc, hall⟩, hlt, hp⟩

theorem Memory.wf_nil : Memory.wf [] = true := rfl

theorem Memory.wf_tail {p : Nat × Byte} {m : Memory} (h : Memory.wf (p :: m) = true) : Memory.wf m = true := by
  rw [Memory.wf_iff] at h ⊢
  exact ⟨fun q hq => h.1 q (List.mem_cons_of_mem _ hq), (List.pairwise_cons.mp h.2).2⟩

/-- The array right after reset is canonical. -/
theorem reset_array_wf : Memory.wf State.reset.array = true := rfl

/-- An address below every listed one reads blank. -/
theorem Memory.read_of_lt {m : Memory} {a : Nat} (h : ∀ p ∈ m, a < p.1) : Memory.read m a = 0xFF := by
  induction m with
  | nil => rfl
  | cons p m ih =>
    have hp := h p List.mem_cons_self
    rw [Memory.read, if_neg (Nat.ne_of_lt hp)]
    exact ih fun q hq => h q (List.mem_cons_of_mem _ hq)

/-! ### Writes -/

/-- A read of the byte written gives it. -/
theorem Memory.read_write_same {m : Memory} (h : Memory.wf m = true) (a : Nat) (b : Byte) :
    Memory.read (Memory.write m a b) a = b := by
  induction m with
  | nil =>
    unfold Memory.write
    split
    · next hb => exact hb.symm
    · simp [Memory.read]
  | cons p m ih =>
    obtain ⟨k, c⟩ := p
    have hw := (Memory.wf_iff _).mp h
    have hlt : ∀ q ∈ m, k < q.1 := (List.pairwise_cons.mp hw.2).1
    unfold Memory.write
    split
    · next hak =>
      split
      · next hb =>
        rw [hb]
        refine Memory.read_of_lt fun q hq => ?_
        rcases List.mem_cons.mp hq with rfl | hq
        · exact hak
        · exact Nat.lt_trans hak (hlt q hq)
      · simp [Memory.read]
    · split
      · next hak =>
        split
        · next hb =>
          rw [hb, hak]
          exact Memory.read_of_lt hlt
        · simp [Memory.read]
      · next hak =>
        rw [Memory.read, if_neg hak]
        exact ih (Memory.wf_tail h)

/-- A write leaves every other byte as it was. -/
theorem Memory.read_write_other (m : Memory) {a a' : Nat} (b : Byte) (h : a' ≠ a) :
    Memory.read (Memory.write m a b) a' = Memory.read m a' := by
  induction m with
  | nil =>
    unfold Memory.write
    split
    · rfl
    · simp [Memory.read, h]
  | cons p m ih =>
    obtain ⟨k, c⟩ := p
    unfold Memory.write
    split
    · split
      · rfl
      · rw [Memory.read, if_neg h]
    · split
      · next hak =>
        subst hak
        split
        · rw [Memory.read, if_neg h]
        · rw [Memory.read, if_neg h, Memory.read, if_neg h]
      · rw [Memory.read, Memory.read, ih]

/-- Every listed entry after a write is the one written or was listed before. -/
theorem Memory.mem_write {m : Memory} {a : Nat} {b : Byte} {q : Nat × Byte} (h : q ∈ Memory.write m a b) :
    (q = (a, b) ∧ b ≠ 0xFF) ∨ q ∈ m := by
  induction m with
  | nil =>
    unfold Memory.write at h
    split at h
    · cases h
    · next hb => exact .inl ⟨List.mem_singleton.mp h, hb⟩
  | cons p m ih =>
    obtain ⟨k, c⟩ := p
    unfold Memory.write at h
    split at h
    · split at h
      · exact .inr h
      · next hb =>
        rcases List.mem_cons.mp h with h | h
        · exact .inl ⟨h, hb⟩
        · exact .inr h
    · split at h
      · split at h
        · exact .inr (List.mem_cons_of_mem _ h)
        · next hb =>
          rcases List.mem_cons.mp h with h | h
          · exact .inl ⟨h, hb⟩
          · exact .inr (List.mem_cons_of_mem _ h)
      · rcases List.mem_cons.mp h with h | h
        · exact .inr (h ▸ List.mem_cons_self)
        · rcases ih h with h | h
          · exact .inl h
          · exact .inr (List.mem_cons_of_mem _ h)

/-- A write of a byte of the array keeps the canonical form. -/
theorem Memory.wf_write {m : Memory} {a : Nat} (b : Byte) (h : Memory.wf m = true) (ha : a < 1048576) :
    Memory.wf (Memory.write m a b) = true := by
  have hw := (Memory.wf_iff _).mp h
  rw [Memory.wf_iff]
  refine ⟨fun q hq => ?_, ?_⟩
  · rcases Memory.mem_write hq with ⟨rfl, hb⟩ | hq
    · exact ⟨ha, hb⟩
    · exact hw.1 q hq
  · clear ha
    induction m with
    | nil =>
      unfold Memory.write
      split <;> simp
    | cons p m ih =>
      obtain ⟨k, c⟩ := p
      have hk := List.pairwise_cons.mp hw.2
      unfold Memory.write
      split
      · next hak =>
        split
        · exact hw.2
        · refine List.pairwise_cons.mpr ⟨fun q hq => ?_, hw.2⟩
          rcases List.mem_cons.mp hq with rfl | hq
          · exact hak
          · exact Nat.lt_trans hak (hk.1 q hq)
      · next hka =>
        split
        · next hak =>
          split
          · exact hk.2
          · exact List.pairwise_cons.mpr ⟨hak ▸ hk.1, hk.2⟩
        · next hne =>
          refine List.pairwise_cons.mpr
            ⟨fun q hq => ?_, ih (Memory.wf_tail h) ((Memory.wf_iff _).mp (Memory.wf_tail h))⟩
          rcases Memory.mem_write hq with ⟨rfl, _⟩ | hq
          · exact Nat.lt_of_le_of_ne (Nat.not_lt.mp hka) fun heq => hne heq.symm
          · exact hk.1 q hq

/-! ### Strikes -/

/-- The address of a byte of a frame lies in the array. -/
theorem byteAddress_lt (f : Frame) {o : Nat} (h : o < 512) : byteAddress f o < 1048576 := by
  have := f.isLt
  unfold byteAddress
  omega

theorem Memory.wf_strikeByte {m : Memory} (f : Frame) (o : Nat) (b : Byte) (h : Memory.wf m = true) :
    Memory.wf (Memory.strikeByte m f o b) = true := by
  unfold Memory.strikeByte
  split
  · next ho => exact Memory.wf_write _ h (byteAddress_lt f ho)
  · exact h

/-- A strike keeps the canonical form, whatever it intends and whatever stays standing. -/
theorem Memory.wf_strike {m : Memory} (f : Frame) (intended stuck : FrameBits) (h : Memory.wf m = true) :
    Memory.wf (Memory.strike m f intended stuck) = true := by
  unfold Memory.strike
  induction intended generalizing m with
  | nil => exact h
  | cons p rest ih => exact ih (Memory.wf_strikeByte f p.1 _ h)

/-- What the strike of one byte does to it. -/
theorem Memory.read_strikeByte_same {m : Memory} (h : Memory.wf m = true) (f : Frame) {o : Nat} (ho : o < 512) (b : Byte) :
    Memory.read (Memory.strikeByte m f o b) (byteAddress f o) = Memory.read m (byteAddress f o) &&& ~~~ b := by
  unfold Memory.strikeByte
  rw [if_pos ho]
  exact Memory.read_write_same h _ _

/-- The strike of one byte leaves every other byte as it was. -/
theorem Memory.read_strikeByte_other (m : Memory) (f : Frame) (o : Nat) (b : Byte) {a : Nat} (h : a ≠ byteAddress f o) :
    Memory.read (Memory.strikeByte m f o b) a = Memory.read m a := by
  unfold Memory.strikeByte
  split
  · exact Memory.read_write_other m _ h
  · rfl

/-! ### Erasures -/

/-- Every entry that an erase leaves listed was listed before, at the same address. -/
theorem Memory.mem_eraseRange {lo hi : Nat} {stuck : Nat → Byte} {m : Memory} {q : Nat × Byte}
    (h : q ∈ Memory.eraseRange lo hi stuck m) : ∃ c, (q.1, c) ∈ m ∧ (c ≠ 0xFF → q.2 ≠ 0xFF) := by
  induction m with
  | nil => cases h
  | cons p m ih =>
    obtain ⟨k, c⟩ := p
    unfold Memory.eraseRange at h
    split at h
    · split at h
      · obtain ⟨d, hd, hq⟩ := ih h
        exact ⟨d, List.mem_cons_of_mem _ hd, hq⟩
      · next hb =>
        rcases List.mem_cons.mp h with h | h
        · subst h
          exact ⟨c, List.mem_cons_self, fun _ => hb⟩
        · obtain ⟨d, hd, hq⟩ := ih h
          exact ⟨d, List.mem_cons_of_mem _ hd, hq⟩
    · rcases List.mem_cons.mp h with h | h
      · subst h
        exact ⟨c, List.mem_cons_self, id⟩
      · obtain ⟨d, hd, hq⟩ := ih h
        exact ⟨d, List.mem_cons_of_mem _ hd, hq⟩

/-- An erase keeps the canonical form. -/
theorem Memory.wf_eraseRange {m : Memory} (lo hi : Nat) (stuck : Nat → Byte) (h : Memory.wf m = true) :
    Memory.wf (Memory.eraseRange lo hi stuck m) = true := by
  have hw := (Memory.wf_iff _).mp h
  rw [Memory.wf_iff]
  refine ⟨fun q hq => ?_, ?_⟩
  · obtain ⟨c, hc, hb⟩ := Memory.mem_eraseRange hq
    exact ⟨(hw.1 _ hc).1, hb (hw.1 _ hc).2⟩
  · induction m with
    | nil => exact List.Pairwise.nil
    | cons p m ih =>
      obtain ⟨k, c⟩ := p
      have hk := List.pairwise_cons.mp hw.2
      have hm := ih (Memory.wf_tail h) ((Memory.wf_iff _).mp (Memory.wf_tail h))
      have hlt : ∀ q ∈ Memory.eraseRange lo hi stuck m, k < q.1 := fun q hq =>
        let ⟨d, hd, _⟩ := Memory.mem_eraseRange hq
        hk.1 (q.1, d) hd
      unfold Memory.eraseRange
      split
      · split
        · exact hm
        · exact List.pairwise_cons.mpr ⟨hlt, hm⟩
      · exact List.pairwise_cons.mpr ⟨hlt, hm⟩

theorem Memory.wf_retireMarker {m : Memory} (f : Frame) (stuck : FrameBits) (h : Memory.wf m = true) :
    Memory.wf (Memory.retireMarker m f stuck) = true := Memory.wf_strike f _ stuck h

theorem Memory.wf_eraseBytes {m : Memory} (f : Frame) (o p : Nat) (stuck : FrameBits) (h : Memory.wf m = true) :
    Memory.wf (Memory.eraseBytes m f o p stuck) = true := Memory.wf_eraseRange _ _ _ h

/-- Every stage of an ERASE, whole or in part, keeps the canonical form. -/
theorem Memory.wf_eraseStage {m : Memory} (f : Frame) (stage : Stage) (undone : FrameBits) (h : Memory.wf m = true) :
    Memory.wf (Memory.eraseStage m f stage undone) = true := by
  cases stage with
  | markerRetirement => exact Memory.wf_retireMarker f undone h
  | bodyErase => exact Memory.wf_eraseBytes f 1 512 undone h
  | markerErase => exact Memory.wf_eraseBytes f 0 1 undone h
  | systemErase => exact Memory.wf_eraseBytes f 0 512 undone h
  | blankVerify => exact h

/-- The cut of any operation keeps the canonical form. -/
theorem Op.wf_cut {m : Memory} (undone : FrameBits) (op : Op) (h : Memory.wf m = true) :
    Memory.wf (Op.cut m undone op) = true := by
  cases op with
  | read f => exact h
  | strike f claimant what => exact Memory.wf_strike f _ undone h
  | erase claimant e since => exact Memory.wf_eraseStage e.frame e.stage undone h

end Sys2Proof.Machine
end

