-- ==== Sys2Proof/Laws/Operations.lean ====
section
/-! SUPPORT. For each shared operation, once, everything it can do: the equations a proof cites instead of unfolding the
operation. -/

namespace Sys2Proof.Machine

set_option Elab.async false

/-! ### Claims of the controller -/

/-- A claim with nothing progressing begins at once, a suspended erase staying suspended (R114). -/
theorem Controller.claim_of_idle {c : Controller} (h : c.op = none) (k : Claim) :
    Controller.claim c k = { op := Claim.operation k, suspended := c.suspended, waiting := none } := by
  simp [Controller.claim, h]

/-- A claim with an operation progressing waits (R114). -/
theorem Controller.claim_of_busy {c : Controller} {op : Op} (h : c.op = some op) (k : Claim) :
    Controller.claim c k = { c with waiting := some k } := by
  simp [Controller.claim, h]

/-- A step whose claim meets an idle controller goes on with that claim's operation. -/
theorem State.claimStep_of_idle {s : State} (h : s.ctrl.op = none) {k : Claim} {op : Op} (hk : Claim.operation k = some op)
    (cmd : Command) (step : EngineStep) : State.claimStep s cmd step k = State.wentOn s cmd step op := by
  simp [State.claimStep, State.claim, State.goStep, State.wentOn, Controller.claim, h, hk]

/-- The same of a claim made after the operation before it ended. -/
theorem State.claimStep_clearOp (s : State) {k : Claim} {op : Op} (hk : Claim.operation k = some op) (cmd : Command)
    (step : EngineStep) : State.claimStep (State.clearOp s) cmd step k = State.wentOn s cmd step op := by
  simp [State.claimStep, State.claim, State.goStep, State.wentOn, State.clearOp, Controller.claim, hk]

/-- A step whose claim meets a progressing operation waits for it, and the operation runs on (R114). -/
theorem State.claimStep_of_busy {s : State} {op : Op} (h : s.ctrl.op = some op) (cmd : Command) (step : EngineStep)
    (k : Claim) :
    State.claimStep s cmd step k = { State.goStep s cmd step with ctrl := { s.ctrl with waiting := some k } } := by
  simp [State.claimStep, State.claim, State.goStep, Controller.claim, h]

/-- Mount's claim meets an idle controller: its operation begins at once (R108, R114). -/
theorem State.mountClaim_of_idle {s : State} (h : s.ctrl.op = none) (w : MountWork) (k : Claim) :
    State.mountClaim s w k =
      { s with
          mount := { s.mount with work := some w }
          ctrl := { s.ctrl with op := Claim.operation k, waiting := none } } := by
  simp [State.mountClaim, State.claim, Controller.claim, h]

/-! ### Posting -/

/-- Posting, with no RESTART pending (R172). -/
theorem State.post_of_not_pending {s : State} (h : s.intake.restartPending = false) (cmd : Command) (r : Result) :
    State.post s cmd r = State.posted s cmd r := by
  simp [State.post, State.posted, h]

/-- Completion with a RESTART pending: nothing is posted, the volatile state is cleared (R178, R179). -/
theorem State.post_of_pending {s : State} (h : s.intake.restartPending = true) (cmd : Command) (r : Result) :
    State.post s cmd r = State.clearForRestart s := by
  simp [State.post, h]

/-- What clearing for a RESTART leaves: the reset state, with the array, the pins and the transaction as they stand, the
waiting commands of the queue and the counter of free values. -/
theorem State.clearForRestart_eq (s : State) :
    State.clearForRestart s =
      { State.reset with
          pins := s.pins
          link := { State.reset.link with transaction := s.link.transaction }
          array := s.array
          pending := s.pending
          freeUses := s.freeUses } := rfl

/-! ### Takes -/

/-- A take from a pool that holds a frame (R126). -/
theorem State.take_of_free {s : State} {f : Frame} {rest : List Frame} (h : s.pools.free = f :: rest) (cmd : Command)
    (w : Writing) :
    State.take s cmd w = State.writeInto (State.setPools s { s.pools with free := rest }) cmd w f := by
  simp [State.take, h]

/-- A take from an empty pool is demand reclaim (R131). -/
theorem State.take_of_empty {s : State} (h : s.pools.free = []) (cmd : Command) (w : Writing) :
    State.take s cmd w = State.demandReclaim s cmd w := by
  simp [State.take, h]

/-- Demand reclaim with an erase suspended resumes it in the foreground (R118). -/
theorem State.demandReclaim_of_suspended {s : State} {e : Erase} (h : s.ctrl.suspended = some e) (cmd : Command)
    (w : Writing) :
    State.demandReclaim s cmd w =
      { State.goStep s cmd (.takeErase w) with
          ctrl := { s.ctrl with op := some (.erase .foreground e 0), suspended := none } } := by
  simp [State.demandReclaim, h]

/-- Demand reclaim with nothing suspended or progressing erases the head of the reclaim queue, or fails (R131 steps 3, 4). -/
theorem State.demandReclaim_of_idle {s : State} (h : s.ctrl.suspended = none) (h' : s.ctrl.op = none) (cmd : Command)
    (w : Writing) : State.demandReclaim s cmd w = State.demandNext s cmd w := by
  simp [State.demandReclaim, h, h']

/-- A take with nothing progressing and no RESTART pending does one of the four things `State.takesFrame` names (R126, R131). -/
theorem State.takesFrame_of_take {c : Instr} {s t : State} {cmd : Command} {w : Writing} (idle : t.ctrl.op = none)
    (going : t.intake.restartPending = false) (h : exec c s = .next (State.take t cmd w)) :
    State.takesFrame c s t cmd w := by
  have start : ∀ f : Frame, 3 ≤ f.val → firstStage f = .markerRetirement := by
    intro f hf
    simp [firstStage, systemFrame]
    omega
  rw [State.takesFrame, h]
  refine ⟨fun f free hf => ?_, fun hf => ⟨fun e he => ?_, fun f more he hr h3 => ?_, fun he hr => ?_⟩⟩
  · rw [State.take_of_free hf]
    exact congrArg _
      (State.claimStep_of_idle (s := State.setHeld (State.setPools t { t.pools with free := free }) (some f)) idle
        (k := .strike f (markerStrike 0x80)) rfl cmd _)
  · rw [State.take_of_empty hf, State.demandReclaim_of_suspended he]
    rfl
  · rw [State.take_of_empty hf, State.demandReclaim_of_idle he idle]
    simp only [State.demandNext, hr]
    exact congrArg _ (State.claimStep_of_idle idle (by simp [Claim.operation, Erase.start, start f h3]) cmd _)
  · rw [State.take_of_empty hf, State.demandReclaim_of_idle he idle]
    simp [State.demandNext, hr, State.takeFails, State.post_of_not_pending going, Writing.failure]
    cases w.old <;> rfl

/-! ### A failed attempt of an ERASE -/

/-- The event with which an attempt fails goes on as `State.attemptFailed` has it, and till then changes the array alone (R112,
R113). -/
theorem State.exec_of_attemptFails {s t : State} {claimant : Claimant} {e : Erase} {c : Instr}
    (h : State.attemptFails s claimant e c t) :
    exec c s = .next (State.attemptFailed t claimant e) ∧ t = { s with array := t.array } := by
  obtain ⟨⟨since, ho⟩, ⟨hs, rfl, rfl, hb⟩ | ⟨hs, elapsed, stuck, rfl, rfl, hm⟩⟩ := h
  · simp [exec, execBlankVerify, State.blankVerify, ho, hs, hb]
  · refine ⟨?_, rfl⟩
    simp only [exec, execMarkerRetirement, State.markerRetirement, ho, hs, if_true]
    rw [if_neg hm]
    rfl

/-- A blank verify that finds a struck bit is a failed attempt (R113). -/
theorem State.attemptFails_blankVerify {s : State} {claimant : Claimant} {e : Erase} {since : Nat}
    (h : s.ctrl.op = some (.erase claimant e since)) (stage : e.stage = .blankVerify)
    (struck : Image.blank (Memory.image s.array e.frame) = false) : State.attemptFails s claimant e .blankVerify s :=
  ⟨⟨since, h⟩, .inl ⟨stage, rfl, rfl, struck⟩⟩

/-- A stage 1 that leaves a bit of the marker standing is a failed attempt (R112). -/
theorem State.attemptFails_markerRetirement {s : State} {claimant : Claimant} {e : Erase} {since : Nat}
    (h : s.ctrl.op = some (.erase claimant e since)) (stage : e.stage = .markerRetirement) (elapsed : Nat)
    (stuck : FrameBits) (standing : Memory.image (Memory.retireMarker s.array e.frame stuck) e.frame 0 ≠ 0) :
    State.attemptFails s claimant e (.markerRetirement elapsed stuck)
      { s with array := Memory.retireMarker s.array e.frame stuck } :=
  ⟨⟨since, h⟩, .inr ⟨stage, elapsed, stuck, rfl, rfl, standing⟩⟩

/-! ### The waiting claim -/

/-- With no claim waiting there is none to serve. -/
theorem State.serveWaiting_of_none {s : State} (h : s.ctrl.waiting = none) : State.serveWaiting s = s := by
  simp [State.serveWaiting, h]

/-- A waiting claim that asks for an operation has it begun (R114). -/
theorem State.serveWaiting_of_operation {s : State} (h' : s.ctrl.op = none) {k : Claim} {op : Op}
    (h : s.ctrl.waiting = some k) (hk : Claim.operation k = some op) :
    State.serveWaiting s = { s with ctrl := { s.ctrl with op := some op, waiting := none } } := by
  cases k <;> simp_all [State.serveWaiting, State.claim, Controller.claim, Claim.operation]

/-! ### Dispatch and the link -/

/-- A dispatch that is due runs on the part without the head of its intake queue (R169, R170). -/
theorem State.dispatch_of_head {s : State} {code : Byte} {cmd : Command} (h : State.dispatchHead s code = some cmd)
    (run : State → Command → State) :
    State.dispatch s code run = run { s with intake := { s.intake with waiting := s.intake.waiting.tail } } cmd := by
  simp [State.dispatch, h]

/-- A dispatch that is not due changes nothing. -/
theorem State.dispatch_of_none {s : State} {code : Byte} (h : State.dispatchHead s code = none)
    (run : State → Command → State) : State.dispatch s code run = s := by
  simp [State.dispatch, h]

/-- The head that a dispatch takes is the intake queue's, of the command's code, with no command in progress, no RESTART
pending, and the part state admitting it (R170). -/
theorem State.dispatchHead_eq_some {s : State} {code : Byte} {cmd : Command} :
    State.dispatchHead s code = some cmd ↔
      s.engine.job = none ∧ s.intake.restartPending = false ∧ State.admits s code = true ∧ cmd.code = code ∧
        ∃ rest, s.intake.waiting = cmd :: rest := by
  unfold State.dispatchHead
  cases s.engine.job with
  | some j => simp
  | none =>
    cases s.intake.waiting with
    | nil => simp
    | cons c rest =>
      constructor
      · intro h
        simp only [Option.ite_none_right_eq_some, Bool.and_eq_true, decide_eq_true_eq, Bool.not_eq_true',
          Option.some.injEq] at h
        obtain ⟨⟨⟨hc, hr⟩, ha⟩, rfl⟩ := h
        exact ⟨rfl, hr, ha, hc, rest, rfl⟩
      · rintro ⟨-, hr, ha, hc, rest', h⟩
        obtain ⟨rfl, rfl⟩ := List.cons.inj h
        simp [hc, hr, ha]

/-- An immediate command taken in a transaction (R189): its answer follows the bytes of the time in which its arguments were
clocked in. -/
theorem State.immediate_of_decoding {s : State} {captured : Byte} (h : State.decoding s captured) (code : Byte)
    (act : Byte → State × List Byte) :
    State.immediate s code act =
      State.setTransaction (act captured).1
        (some
          { captured := captured
            phase :=
              .answering
                (commandTimeBytes code s.freeUses ((immediateArguments code).getD 0) ++ (act captured).2) }) := by
  have h' : s.link.transaction = some { captured := captured, phase := .decoding } := h
  simp [State.immediate, h']

/-- Outside a transaction, or after its command is complete, no immediate command is taken (R181). -/
theorem State.immediate_of_not_decoding {s : State} (h : ∀ captured, ¬ State.decoding s captured) (code : Byte)
    (act : Byte → State × List Byte) : State.immediate s code act = s := by
  unfold State.immediate
  split
  · next captured h' => exact absurd h' (h captured)
  · rfl

/-- MISO carries H'FF while the bytes of a submission after its code byte are clocked in (R184). -/
theorem commandTimeBytes_of_submission {code : Byte} (h : submissionCode code = true) (uses n : Nat) :
    commandTimeBytes code uses n = List.replicate n 0xFF := by
  have : commandTimeByte code uses = fun _ => 0xFF := funext fun i => by simp [commandTimeByte, h]
  simp [commandTimeBytes, this]

/-- A command of no argument bytes has no such time. -/
@[simp] theorem commandTimeBytes_zero (code : Byte) (uses : Nat) : commandTimeBytes code uses 0 = [] := rfl

/-! ### The walk of a mount -/

/-- Outside the walk of a mount nothing happens by itself. -/
theorem State.tick_of_none {s : State} (h : ∀ w ∈ s.mount.work, w.step ≠ .walk) : State.tick s = s := by
  unfold State.tick
  split
  · next w hw => exact if_neg (h w hw)
  · rfl

/-- In its walk a mount goes on by one frame (R156). -/
theorem State.tick_of_walk {s : State} {w : MountWork} (h : s.mount.work = some w) (hw : w.step = .walk) :
    State.tick s = State.walkOn s w := by
  simp [State.tick, h, hw]

/-- The walk that has placed every frame ends the mount in READY (R156). -/
theorem State.walkOn_of_nil (s : State) {w : MountWork} (h : w.scanned = []) : State.walkOn s w = State.mountEnds s .ready := by
  simp [State.walkOn, h]

/-- The walk places the next frame and goes on with the others (R156). -/
theorem State.walkOn_of_cons (s : State) {w : MountWork} {q : Frame × Placement} {rest : List (Frame × Placement)}
    (h : w.scanned = q :: rest) :
    State.walkOn s w =
      State.placeFrame { s with mount := { s.mount with work := some { w with scanned := rest } } } q := by
  simp [State.walkOn, h]

/-! ### The scan and the resolution of a mount -/

/-- No winner holds the key of a candidate that stands after them with distinct keys. -/
theorem find?_key_eq_none {winners todo : List Candidate} {q : Candidate}
    (h : ((winners ++ q :: todo).map fun p => p.key).Nodup) : (winners.find? fun p => p.key = q.key) = none := by
  simp only [List.map_append, List.map_cons, List.nodup_append] at h
  simp only [List.find?_eq_none, decide_eq_true_eq]
  exact fun x hx => h.2.2 _ (List.mem_map_of_mem hx) _ List.mem_cons_self

/-- Among winners of distinct keys the one that holds a key is the one found for it. -/
theorem find?_key_eq_some {winners : List Candidate} {p q : Candidate} (h : (winners.map fun p => p.key).Nodup)
    (hp : p ∈ winners) (hk : p.key = q.key) : (winners.find? fun p => p.key = q.key) = some p := by
  induction winners with
  | nil => cases hp
  | cons c winners ih =>
    have hc := List.nodup_cons.mp h
    rcases List.mem_cons.mp hp with rfl | hp
    · simp [hk]
    · have : c.key ≠ q.key := fun hcq => hc.1 (List.mem_map.mpr ⟨p, hp, hk.trans hcq.symm⟩)
      simp [this, ih hc.2 hp]

/-- Candidates of distinct keys are all winners, and the walk begins (R155, R156). -/
theorem State.resolve_of_distinct (s : State) (w : MountWork) {todo winners : List Candidate}
    (h : ((winners ++ todo).map fun p => p.key).Nodup) : State.resolve s w todo winners = State.beginWalk s w := by
  induction todo generalizing winners with
  | nil => rfl
  | cons q todo ih =>
    simp only [State.resolve, find?_key_eq_none h]
    exact ih (by simpa using h)

/-- The first candidate whose key has a winner makes a pair with it: the pair is counted and the loser's MOVED strike is claimed
(R154, R155, R157). -/
theorem State.resolve_of_pair (s : State) (w : MountWork) {before after winners : List Candidate} {p q : Candidate}
    (h : ((winners ++ before).map fun p => p.key).Nodup) (hp : p ∈ winners ++ before) (hk : p.key = q.key) :
    State.resolve s w (before ++ q :: after) winners =
      State.mountClaim (State.setReport s { s.mount.report with duplicates := s.mount.report.duplicates + 1 })
        { w with
            step :=
              .movedStrike
                (.resolve after
                  ((winners ++ before).map fun c =>
                    if c.key = q.key then if firstWins p q then p else q else c)) }
        (.strike (if firstWins p q then q else p).frame
          (markerStrike (transitionBits .moved (if firstWins p q then q else p).marker))) := by
  induction before generalizing winners with
  | nil =>
    rw [List.append_nil] at h hp
    simp only [List.nil_append, State.resolve, find?_key_eq_some h hp hk, List.append_nil]
  | cons b before ih =>
    simp only [List.cons_append, State.resolve, find?_key_eq_none h]
    rw [ih (by simpa using h) (by simpa using hp)]
    simp

/-- The scan claims the READ of the next frame that is not bad (R149). -/
theorem State.scanFrom_of_frame {s : State} {n : Nat} {f : Frame} (h : nextFrame s.pools.bad 2048 n = some f)
    (w : MountWork) : State.scanFrom s w n = State.mountClaim s { w with step := .scanRead } (.read f) := by
  simp [State.scanFrom, h]

/-- After the last frame the candidates of the scan are resolved (R149, R155). -/
theorem State.scanFrom_of_none {s : State} {n : Nat} (h : nextFrame s.pools.bad 2048 n = none) (w : MountWork) :
    State.scanFrom s w n = State.resolve s w (MountWork.candidates w) [] := by
  simp [State.scanFrom, h]

/-! ### Ordered collections -/

/-- Membership of the index after an insertion. -/
theorem mem_insertEntry {e d : Entry} {index : List Entry} : d ∈ insertEntry e index ↔ d = e ∨ d ∈ index := by
  induction index with
  | nil => simp [insertEntry]
  | cons c rest ih =>
    unfold insertEntry
    split
    · simp
    · simp only [List.mem_cons, ih]
      exact or_left_comm

/-- The insertion of a new key keeps a list of entries in order of key, with distinct keys (R25). -/
theorem pairwise_insertEntry {e : Entry} {index : List Entry}
    (h : index.Pairwise fun c d => c.key.toNat < d.key.toNat) (he : ∀ d ∈ index, d.key ≠ e.key) :
    (insertEntry e index).Pairwise fun c d => c.key.toNat < d.key.toNat := by
  induction index with
  | nil => simp [insertEntry]
  | cons c rest ih =>
    have hc := List.pairwise_cons.mp h
    unfold insertEntry
    split
    · next hlt =>
      refine List.pairwise_cons.mpr ⟨fun d hd => ?_, h⟩
      rcases List.mem_cons.mp hd with rfl | hd
      · exact hlt
      · exact Nat.lt_trans hlt (hc.1 d hd)
    · next hge =>
      refine List.pairwise_cons.mpr ⟨fun d hd => ?_, ih hc.2 fun d hd => he d (List.mem_cons_of_mem _ hd)⟩
      rcases mem_insertEntry.mp hd with rfl | hd
      · exact Nat.lt_of_le_of_ne (Nat.not_lt.mp hge) fun h => he c List.mem_cons_self (BitVec.eq_of_toNat_eq h)
      · exact hc.1 d hd

/-- Marking, repointing and removing keep every entry's key, so they keep the order. -/
theorem pairwise_markEntry {key : Word} {gen : Gen} {index : List Entry}
    (h : index.Pairwise fun c d => c.key.toNat < d.key.toNat) :
    (markEntry key gen index).Pairwise fun c d => c.key.toNat < d.key.toNat := by
  refine List.pairwise_map.mpr (h.imp fun {c d} hcd => ?_)
  split <;> split <;> exact hcd

theorem pairwise_repointEntry {key : Word} {frame : Frame} {gen : Gen} {index : List Entry}
    (h : index.Pairwise fun c d => c.key.toNat < d.key.toNat) :
    (repointEntry key frame gen index).Pairwise fun c d => c.key.toNat < d.key.toNat := by
  refine List.pairwise_map.mpr (h.imp fun {c d} hcd => ?_)
  split <;> split <;> exact hcd

theorem pairwise_removeEntry {key : Word} {index : List Entry}
    (h : index.Pairwise fun c d => c.key.toNat < d.key.toNat) :
    (removeEntry key index).Pairwise fun c d => c.key.toNat < d.key.toNat := h.filter _

/-- A find gives an entry of the index that holds the key (R27). -/
theorem findEntry_eq_some {index : List Entry} {key : Word} {e : Entry} (h : findEntry index key = some e) :
    e ∈ index ∧ e.key = key :=
  ⟨List.mem_of_find?_eq_some h, by simpa using List.find?_some h⟩

/-- A set of frames after an insertion. -/
theorem mem_insertFrame {f g : Frame} {frames : List Frame} : g ∈ insertFrame f frames ↔ g = f ∨ g ∈ frames := by
  induction frames with
  | nil => simp [insertFrame]
  | cons c rest ih =>
    unfold insertFrame
    split
    · simp
    · split
      · next h =>
        subst h
        simp
      · simp only [List.mem_cons, ih]
        exact or_left_comm

/-- The next frame of a walk is not bad, and not before the place it began from. -/
theorem nextFrame_eq_some {bad : List Frame} {fuel n : Nat} {g : Frame} (h : nextFrame bad fuel n = some g) :
    n ≤ g.val ∧ g ∉ bad := by
  induction fuel generalizing n with
  | zero => simp [nextFrame] at h
  | succ k ih =>
    unfold nextFrame at h
    split at h
    · split at h
      · exact ⟨Nat.le_of_succ_le (ih h).1, (ih h).2⟩
      · next hb =>
        obtain rfl := Option.some.inj h
        exact ⟨Nat.le_refl _, by simpa using hb⟩
    · simp at h

end Sys2Proof.Machine
end

