-- ==== Sys2Proof/WellFormed.lean ====
section
/-! DEFINITION. Which terms are commands and events the outside can present: each check refuses one kind of ill-formed
operand. -/

namespace Sys2Proof

/-- A set of frame bits written in order: offsets inside the frame, strictly rising. -/
def FrameBits.wellFormed : FrameBits → Bool
  | [] => true
  | [(o, _)] => o < 512
  | (o, _) :: (p, b) :: rest => o < p && FrameBits.wellFormed ((p, b) :: rest)

/-- An attempt of an ERASE takes at most 15 ms of progress (R112). -/
def elapsedOk (elapsed : Nat) : Bool := elapsed ≤ 15000

/-- The well-formed commands. -/
def Instr.wellFormed : Instr → Bool
  | .powerOn cut => FrameBits.wellFormed cut
  | .resetnAssertion cut => FrameBits.wellFormed cut
  | .resetnRelease => true
  | .chipSelectFall => true
  | .submission code _ args _ => submissionCode code && args.length ≤ 255
  | .submissionTruncated bytes => incompleteSubmission bytes
  | .status => true
  | .collect => true
  | .recordShiftedOut => true
  | .info => true
  | .setEpoch _ => true
  | .holdClass _ => true
  | .releaseClass _ => true
  | .cancel _ => true
  | .restart cut => FrameBits.wellFormed cut
  | .unknownImmediateCommand code => !submissionCode code && !immediateCode code
  | .issue => true
  | .lookup => true
  | .draw => true
  | .topup => true
  | .move => true
  | .revoke => true
  | .list => true
  | .configureClass => true
  | .purgeOrphans => true
  | .format cut => FrameBits.wellFormed cut
  | .readComplete => true
  | .strikeComplete stuck => FrameBits.wellFormed stuck
  | .markerRetirement t stuck => elapsedOk t && FrameBits.wellFormed stuck
  | .bodyErase t stuck => elapsedOk t && FrameBits.wellFormed stuck
  | .markerErase t stuck => elapsedOk t && FrameBits.wellFormed stuck
  | .systemFrameErase t stuck => elapsedOk t && FrameBits.wellFormed stuck
  | .blankVerify => true
  | .quantum => true
  | .suspension t undone => elapsedOk t && FrameBits.wellFormed undone
  | .backgroundStart => true
  | .backgroundResume => true
  | .transactionEnd => true
  | .powerLoss cut => FrameBits.wellFormed cut

end Sys2Proof
end

