-- ==== Sys2Proof/Tests/Slice0.lean ====
section
/-! SUPPORT. Tests: the well-formedness checks, values the manual prints (check values, tables, worked examples), small steps
on small states, and for each statement with hypotheses a witness that meets them, clause by clause. -/

namespace Sys2Proof.Tests

set_option Elab.async false

open Sys2Proof Sys2Proof.Machine

/-! ### Small states -/

/-- A READY part with nothing in progress and a blank array. -/
def ready : State :=
  { State.reset with
      part := .ready, ctrl := Controller.idle, mount := { State.reset.mount with work := none, label := some 0 } }

/-- A record of the highest class, with 4 units. -/
def rec1 : NewRecord :=
  { key := 1, gen := 0, cls := 15, allowance := 4, window := none, label := [], topups := 0 }

/-- The entry of `rec1` in frame 3. -/
def entry1 : Entry := { key := 1, frame := 3, gen := 0, cls := some 15 }

/-- The same entry, marked corrupt. -/
def corrupt1 : Entry := { key := 1, frame := 3, gen := 0, cls := none }

/-- A record written whole into frame 3, its marker LIVE. -/
def live (r : NewRecord) : Memory :=
  Memory.strike (Memory.strike [] 3 (Strike.intended (recordStrike r)) []) 3 [(0, 0xC0)] []

/-- A policy that permits all, with the limit `units`. -/
def policy (units : Nat) : Policy :=
  { drawPermitted := true, topupPermitted := true, revokePermitted := true, retireWhenSpent := true, startHeld := false,
    windowRequired := false, maxUnits := units }

/-- Every class SET with one policy. -/
def allSet (p : Policy) : Vector ClassStatus 16 := Vector.replicate 16 (.set p)

/-- READY, holding one grant, `rec1`. -/
def open1 : State := { ready with array := live rec1, index := [entry1], policies := allSet (policy 1024) }

/-- A command is in progress at a step. -/
def busy (s : State) (cmd : Command) (step : EngineStep) : State :=
  { s with engine := { s.engine with job := some { cmd := cmd, step := step } } }

/-- The controller carries out an operation. -/
def working (s : State) (op : Op) : State := { s with ctrl := { s.ctrl with op := some op } }

/-- A foreground claim waits. -/
def waiting (s : State) (k : Claim) : State := { s with ctrl := { s.ctrl with waiting := some k } }

/-- One command waits in the intake queue. -/
def queued (s : State) (cmd : Command) : State := { s with intake := { s.intake with waiting := [cmd] } }

/-- A transaction is open, nothing taken yet. -/
def linked (s : State) : State :=
  { s with link := { s.link with transaction := some { captured := 0x41, phase := .decoding } } }

/-- A RESTART is pending. -/
def restarting (s : State) : State := { s with intake := { s.intake with restartPending := true } }

/-- A command of tag 1. -/
def command (code : Byte) (args : List Byte) : Command := { tag := 1, code := code, args := args }

/-- Records of `n` finished commands, of tags 1 to `n`. -/
def finished (n : Nat) : List Record :=
  (List.range n).map fun i =>
    { cmd := { tag := BitVec.ofNat 8 (i + 1), code := 0x49, args := [] }, result := plainResult .done (.purge 0 0) }

/-- A part whose result queue holds `n` records. -/
def holding (n : Nat) : State := { ready with intake := { ready.intake with results := finished n } }

/-- The values LOOKUP takes at its dispatch in `open1`. -/
def snap1 : Snapshot := State.snapshot open1

/-- The state a command answers, or the state before where it answers none. -/
def after (c : Instr) (s : State) : State :=
  match exec c s with
  | .next t => t
  | .fault _ => s
  | .refused _ => s

/-- A command or event waits at the front of the queue. -/
def front (c : Instr) (s : State) : State := { s with pending := [c] }

/-- The state a step answers, or the state before where it answers none. -/
def stepped (s : State) : State :=
  match step s with
  | .next t => t
  | .fault _ => s
  | .refused _ => s

/-- An ERASE of frame 3 in a stage. -/
def erase3 (attempt : Attempt) (stage : Stage) : Erase :=
  { frame := 3, attempt := attempt, stage := stage, progress := 0 }

/-- A background ERASE of frame 3 progresses. -/
def background3 : Op := .erase .background (erase3 .first .bodyErase) 0

/-- A READY part with this array, one grant in frame 3 and these frames in its free pool. -/
def full (m : Memory) (free : List Frame) : State :=
  { ready with array := m, index := [entry1], pools := { ready.pools with free := free } }

/-- An ERASE of `f` in its blank verify, the last byte of the frame struck. -/
def blankFails (s : State) (claimant : Claimant) (f : Frame) (attempt : Attempt) : State :=
  working { s with array := [(512 * f.val + 511, 0)] }
    (.erase claimant { frame := f, attempt := attempt, stage := .blankVerify, progress := 0 } 0)

/-- An ERASE of `f` in stage 1, every frame blank. -/
def retirementFails (s : State) (claimant : Claimant) (f : Frame) (attempt : Attempt) : State :=
  working { s with array := [] }
    (.erase claimant { frame := f, attempt := attempt, stage := .markerRetirement, progress := 0 } 0)

/-- Both are failed attempts, for a system frame (which has no stage 1) and a grant frame: a struck bit at the blank verify, or
one bit of the marker left standing in stage 1. -/
theorem failed_attempts (s : State) (claimant : Claimant) (attempt : Attempt) :
    (∀ f ∈ ([0, 1, 2, 3, 2047] : List Frame),
        State.attemptFails (blankFails s claimant f attempt) claimant
          { frame := f, attempt := attempt, stage := .blankVerify, progress := 0 } .blankVerify
          (blankFails s claimant f attempt)) ∧
      ∀ f ∈ ([3, 2047] : List Frame),
        State.attemptFails (retirementFails s claimant f attempt) claimant
          { frame := f, attempt := attempt, stage := .markerRetirement, progress := 0 } (.markerRetirement 0 [(0, 1)])
          { retirementFails s claimant f attempt with array := Memory.retireMarker [] f [(0, 1)] } := by
  have struck : ∀ f ∈ ([0, 1, 2, 3, 2047] : List Frame),
      Image.blank (Memory.image [(512 * f.val + 511, 0)] f) = false := by decide +kernel
  have standing : ∀ f ∈ ([3, 2047] : List Frame),
      Memory.image (Memory.retireMarker [] f [(0, 1)]) f 0 ≠ 0 := by decide +kernel
  exact ⟨fun f hf => State.attemptFails_blankVerify (since := 0) rfl rfl (struck f hf),
    fun f hf => State.attemptFails_markerRetirement (since := 0) rfl rfl 0 [(0, 1)] (standing f hf)⟩

/-! ### WellFormed refuses each kind of ill-formed term -/

theorem test_wf_offset_outside_frame : Instr.wellFormed (.powerOn [(512, 1)]) = false := by decide

theorem test_wf_offsets_not_rising : Instr.wellFormed (.strikeComplete [(5, 1), (5, 2)]) = false := by decide

theorem test_wf_code_not_a_submission : Instr.wellFormed (.submission 0x3F 1 [] 0) = false := by decide

theorem test_wf_arguments_too_long : Instr.wellFormed (.submission 0x41 1 (List.replicate 256 0) 0) = false := by
  decide +kernel

theorem test_wf_complete_frame_not_truncated :
    Instr.wellFormed (.submissionTruncated [0x49, 1, 0, 0, 0, 0, 0]) = false := by decide

theorem test_wf_nothing_not_truncated : Instr.wellFormed (.submissionTruncated []) = false := by decide

theorem test_wf_known_code_not_unknown : Instr.wellFormed (.unknownImmediateCommand 0x08) = false := by decide

theorem test_wf_elapsed_beyond_attempt : Instr.wellFormed (.bodyErase 15001 []) = false := by decide

theorem test_wf_accepts :
    Instr.wellFormed (.suspension 15000 [(0, 1), (511, 0x80)]) = true ∧
      Instr.wellFormed (.submissionTruncated [0x49, 1, 0, 0, 0, 0]) = true := by decide

/-! ### Words and check values -/

/-- No row of the table gives bits, so no word spells a command. -/
theorem test_no_word_spells_a_command : decodeTableWord 8 0x41 = none ∧ State.withFetchWord ready 8 0x41 = ready :=
  ⟨rfl, rfl⟩

/-- R194: the bytes of each command, the code byte first; H'00 and H'09 are no command's codes, and a byte too few spells none. -/
theorem test_table_of_codes :
    ([[1], [2], [3], [4, 0, 0, 0, 9], [5, 15], [6, 16], [7, 255], [8], [0], [9], [4, 0, 0, 0], [5],
          [0x49, 1, 0, 0, 0, 0, 0], [0x42, 7, 1, 5, 0, 0, 0, 9], [0x42, 7, 1, 5, 0, 0, 0]] : List (List Byte)).map
        (transactionCommand []) =
      [some .status, some .collect, some .info, some (.setEpoch 9), some (.holdClass 15), some (.releaseClass 16),
        some (.cancel 255), some (.restart []), some (.unknownImmediateCommand 0), some (.unknownImmediateCommand 9),
        none, none, some (.submission 0x49 1 [] 0), some (.submission 0x42 7 [5] 9), none] := by decide +kernel

/-- The CRC-32 of R188 over the digits 1 to 9; the value is the published check value of those parameters
(polynomial 04C11DB7, initial FFFFFFFF, not reflected, no final complement). -/
theorem test_link_crc_check_value :
    linkCrc [0x31, 0x32, 0x33, 0x34, 0x35, 0x36, 0x37, 0x38, 0x39] = 0x0376E6E7 := by decide +kernel

/-- The CRC-32 of R13 over the same bytes: the complement of the register. -/
theorem test_check_code_check_value :
    checkCode [0x31, 0x32, 0x33, 0x34, 0x35, 0x36, 0x37, 0x38, 0x39] = 0xFC891918 := by decide +kernel

/-! ### The manual's tables -/

/-- The table of marker readings (section 1.2): decoded phase, irregular, and the bits of the regularising strike. -/
theorem test_marker_readings :
    ([0xFF, 0x7F, 0x3F, 0xBF, 0xDF, 0x5F, 0x6F, 0x2F, 0x3E, 0xF7] : List Byte).map
        (fun m => (phaseOf m, irregular m, regularisingBits m)) =
      [(.blank, false, 0), (.opening, false, 0), (.live, false, 0), (.live, true, 0x80), (.moved, true, 0xC0),
        (.moved, true, 0x40), (.retired, true, 0x60), (.retired, true, 0x20), (.live, true, 0),
        (.blank, true, 0)] := by decide

/-- R17's example: marks 0 to 3 and 7 struck, 4 to 6 standing, read a consumed count of 8. -/
theorem test_gap_counts_as_consumed : consumed (fun o => if o = 64 then 0x0E else 0xFF) tallyA 1024 = 8 := by
  decide +kernel

/-- R9: a generation is newer up to 32767 ahead, the wrap included; 32768 ahead neither is. -/
theorem test_newer_wraps :
    newer 0 65535 = true ∧ newer 32767 0 = true ∧ newer 32768 0 = false ∧ newer 0 32768 = false := by decide

/-- R97 writes the region of class 15 at the end of frame 1, and it reads back SET. -/
theorem test_policy_region_of_class_15 :
    Image.classStatus (Memory.image (Memory.strike [] 1 (Strike.intended (policyStrike 15 (policy 1))) []) 1) 15 =
      .set (policy 1) := by decide +kernel

/-- R133: the mark of frame 2047 is bit 0 of byte 255 of frame 2. -/
theorem test_mark_of_frame_2047 : markBits 2047 = [(255, 0x01)] := by decide

/-- R182: READY with fewer than 8 free frames and a record waiting. -/
theorem test_port_status_byte : State.portStatus (holding 1) = 0x91 := by decide

/-! ### Small steps -/

/-- R193: after power-on a mount reads frame 0; on a blank array it ends UNFORMATTED (R146). -/
theorem test_blank_array_mounts_unformatted :
    (after .readComplete (after (.powerOn []) State.reset)).part = .unformatted := by decide +kernel

/-- R170: a dispatch out of turn is not made. -/
theorem test_no_dispatch_while_mounting : after .list State.reset = State.reset := by decide +kernel

/-- R52: a DRAW of the last unit of a frame of 9 units strikes mark 8 alone, bit 7 of the second byte. -/
theorem test_strike_of_last_mark : Strike.intended (tallyStrike tallyA 8 9) = [(65, 0x80)] := by decide

/-- R106: a strike turns no struck bit back, whatever its byte intends. -/
theorem test_strike_keeps_struck_bits :
    Memory.read (Memory.strike [(1536, 0x7F)] 3 [(0, 0x40)] []) 1536 = 0x3F := by decide

/-- R112: the marker erase of frame 3 leaves its body and the next frame as they were. -/
theorem test_marker_erase_touches_one_byte :
    Memory.eraseStage [(1536, 0), (1537, 1), (2048, 2)] 3 .markerErase [] = [(1537, 1), (2048, 2)] := by decide

/-- R45: a DRAW of 1025 units ends with BAD_ARGUMENT. -/
theorem test_draw_of_1025_units :
    (after .draw (queued open1 (command 0x43 [0, 0, 0, 1, 4, 1, 0]))).intake.results.map (fun r => r.result.outcome) =
      [.badArgument] := by decide +kernel

/-- R154: of two sound candidates of equal generation the one with fewer remaining units wins. -/
theorem test_fewer_units_win :
    firstWins { frame := 3, marker := 0x3F, key := 1, gen := 0, sound := some (0, 5) }
      { frame := 4, marker := 0x3F, key := 1, gen := 0, sound := some (0, 4) } = false := by decide

/-- R187: a refusal is written as the last-submission outcome, the frame as received. -/
theorem test_refusal_written :
    (after (.submission 0x47 9 [0, 0, 0, 0] 0) (linked ready)).link.last =
      { outcome := 0x24, tag := 9, code := 0x47 } := by decide +kernel

/-- R184, R181: while the 6 + L bytes after the code byte of a submission are clocked in MISO carries H'FF, then the acceptance
code, then H'FF. -/
theorem test_miso_of_a_submission :
    let s := after (.submission 0x47 9 [0, 0, 0, 0] 0) (linked ready)
    (List.range 14).map (State.miso s) =
      ([0x41, 0xFF, 0xFF, 0xFF, 0xFF, 0xFF, 0xFF, 0xFF, 0xFF, 0xFF, 0xFF, 0x24, 0xFF, 0xFF] : List Byte).map
        .carries := by decide +kernel

/-- R190: beyond a collected record MISO carries H'FF; chip select high, it is high impedance. -/
theorem test_miso_beyond_a_record :
    let s := after .recordShiftedOut (after .collect (linked (holding 1)))
    State.miso s 1 = .carries 0x00 ∧ State.miso s 2 = .carries 14 ∧
      State.miso s (2 + 14) = .carries 0xFF ∧ State.miso (after .transactionEnd s) 0 = .highImpedance := by
  decide +kernel

/-- R156: INFO during the walk shows the lengths and counts rising: one frame is placed in each step with nothing commanded. -/
theorem test_walk_places_one_frame :
    let c : Candidate := { frame := 5, marker := 0x3F, key := 1, gen := 0, sound := some (15, 4) }
    let s : State :=
      { State.reset with
          ctrl := Controller.idle
          mount :=
            { State.reset.mount with
                work := some { step := .walk, scanned := [(3, .free), (4, .reclaim), (5, .candidate c)] } } }
    ([s, stepped s, stepped (stepped s), stepped (stepped (stepped s)), stepped (stepped (stepped (stepped s)))].map
        fun t => (t.part, t.pools.free.length, t.pools.reclaim.length, State.liveCount t, t.link.mounted)) =
      [(.mounting, 0, 0, 0, false), (.mounting, 1, 0, 0, false), (.mounting, 1, 1, 0, false), (.mounting, 1, 1, 1, false),
        (.ready, 1, 1, 1, true)] := by decide +kernel

/-! ### Witnesses: states and operands that meet the hypotheses of each statement, clause by clause -/

/-- A LOOKUP of key 1. -/
def lookup1 : Command := command 0x42 [0, 0, 0, 1]

/-- A DRAW of all 4 units, EXACT. -/
def draw1 : Command := command 0x43 [0, 0, 0, 1, 0, 4, 0]

/-- An ISSUE of key 2, class 15, 4 units, no window, no label. -/
def issue2 : Command := command 0x41 [0, 0, 0, 2, 15, 0, 4, 0, 0, 0, 0, 0, 0, 0, 0, 0, 0]

/-- A TOPUP of key 1 by 1020 units, which with its 4 make 1024. -/
def topup1 : Command := command 0x44 [0, 0, 0, 1, 3, 0xFC, 0, 0, 0, 0, 0, 0, 0, 0, 0]

/-- The record an accepted `issue2` writes. -/
def rec2 : NewRecord := { rec1 with key := 2 }

/-- The writing of `rec2`. -/
def writing2 : Writing := { record := rec2, failed := 0, old := none }

/-- The record of a finished PURGE ORPHANS of tag 1. -/
def finished1 : Record := { cmd := command 0x49 [], result := plainResult .done (.purge 0 0) }

/-- A background ERASE of frame 3 that has just completed a quantum. -/
def erasing3 (attempt : Attempt) (stage : Stage) : State :=
  working { ready with pools := { ready.pools with reclaim := [3] } } (.erase .background (erase3 attempt stage) 400)

/-- The grant of `open1` as its READ finds it. -/
def grant1 : Grant := Image.grant (Memory.image open1.array 3)

/-- The DRAW of its 4 units. -/
def drawing1 : Drawing := { grant := grant1, units := 4, retire := true }

/-- The relocation of its grant. -/
def writing1 : Writing := { record := moveRecord grant1, failed := 0, old := some (oldGrant 3 grant1) }

/-- A mount that scans frame 2046. -/
def scanning (m : Memory) : State :=
  { ready with
      part := .mounting
      array := m
      mount := { ready.mount with work := some { step := .scanRead, scanned := [] } }
      ctrl := { ready.ctrl with op := some (.read 2046) } }

theorem witness_ResetsClearVolatileState :
    (ready.pins.powered = true ∧ ready.pins.resetnLow = false) ∧
      let s := after (.resetnAssertion []) ready
      s.pins.powered = true ∧ s.pins.resetnLow = true ∧ s.ctrl = { op := none, suspended := none, waiting := none } := by
  decide +kernel

theorem witness_PowerLossStopsPartUntilPowerOn :
    ready.pins.powered = true ∧ exec (.powerLoss []) ready = .next (after (.powerLoss []) ready) ∧
      ∀ cut, Instr.info ≠ .powerOn cut := ⟨rfl, rfl, nofun⟩

theorem witness_RestartTakenOrRefused :
    (let s := working (busy (linked ready) lookup1 (.lookupRead snap1 entry1)) (.read 3);
      State.decoding s 0x41 ∧ s.intake.restartPending = false ∧ s.part ≠ .mounting ∧
        s.engine.job = some { cmd := lookup1, step := .lookupRead snap1 entry1 } ∧ s.ctrl.op = some (.read 3) ∧
          Op.isBackground (.read 3) = false) ∧
      (let s := waiting (busy (linked (erasing3 .first .bodyErase)) lookup1 (.lookupRead snap1 entry1)) (.read 4);
        State.decoding s 0x41 ∧ s.intake.restartPending = false ∧ s.part ≠ .mounting ∧
          s.engine.job = some { cmd := lookup1, step := .lookupRead snap1 entry1 } ∧
          s.ctrl.op = some (.erase .background (erase3 .first .bodyErase) 400) ∧ s.ctrl.waiting = some (.read 4) ∧
            Claim.operation (.read 4) = some (.read 4)) ∧
      (let s (step : EngineStep) (k : Claim) :=
          waiting (busy (linked (working (erasing3 .retry .blankVerify) (.strike 2 .background (markStrike 3)))) issue2 step) k;
        let u := s (.lookupRead snap1 entry1) (.read 4);
        let v := s (.takeWait writing2) .demand;
        State.decoding u 0x41 ∧ u.intake.restartPending = false ∧ u.part ≠ .mounting ∧
          u.engine.job = some { cmd := issue2, step := .lookupRead snap1 entry1 } ∧
          u.ctrl.op = some (.strike 2 .background (markStrike 3)) ∧ u.ctrl.waiting = some (.read 4) ∧
          State.decoding v 0x41 ∧ v.intake.restartPending = false ∧ v.part ≠ .mounting ∧
          v.engine.job = some { cmd := issue2, step := .takeWait writing2 } ∧
          v.ctrl.op = some (.strike 2 .background (markStrike 3)) ∧ v.ctrl.waiting = some .demand ∧ v.pools.free = [] ∧
          v.pools.reclaim = 3 :: [] ∧ 3 ≤ (3 : Frame).val) ∧
      (State.decoding (linked ready) 0x41 ∧ (linked ready).intake.restartPending = false ∧
        (linked ready).part ≠ .mounting ∧ (linked ready).engine.job = none) ∧
      (State.decoding (linked State.reset) 0x41 ∧ (linked State.reset).part = .mounting) ∧
      State.decoding (linked (restarting ready)) 0x41 ∧ (linked (restarting ready)).intake.restartPending = true := by
  decide +kernel

/-- The command that completes, FORMAT's record strike, and a command that goes on. -/
theorem witness_PendingRestartEndsInClearing :
    let s := working (busy (restarting open1) lookup1 (.lookupRead snap1 entry1)) (.read 3)
    let going (s : State) : State := { s with intake := { s.intake with restartPending := false } }
    let fm : Formatting := { label := 0, erased := 0, newlyBad := 0, systemFailures := 0 }
    let u :=
      working (busy (restarting ready) (command 0x4A [0, 0, 0, 0]) (.formatRecord fm))
        (.strike 0 .foreground (.field 0 (formatBytes 0)))
    let v := working (busy (restarting open1) draw1 (.drawStrikeA drawing1 entry1)) (.strike 3 .foreground (markStrike 3))
    let left (c : Instr) (s : State) : Option Bool := (after c (going s)).engine.job.map fun j => EngineStep.mounts j.step
    (s.intake.restartPending = true ∧ (front .readComplete s).pending.head? ≠ some .recordShiftedOut ∧
        step (front .readComplete s) = .next (stepped (front .readComplete s))) ∧
      (arrayEvent .readComplete ∧ s.mount.work = none ∧
        s.engine.job = some { cmd := lookup1, step := .lookupRead snap1 entry1 } ∧
        EngineStep.mounts (.lookupRead snap1 entry1) = false ∧
        exec .readComplete (going s) = .next (after .readComplete (going s)) ∧ left .readComplete s = none) ∧
      (arrayEvent (.strikeComplete []) ∧ u.intake.restartPending = true ∧ u.mount.work = none ∧
        u.engine.job = some { cmd := command 0x4A [0, 0, 0, 0], step := .formatRecord fm } ∧
        EngineStep.mounts (.formatRecord fm) = false ∧
        exec (.strikeComplete []) (going u) = .next (after (.strikeComplete []) (going u)) ∧
        left (.strikeComplete []) u = some true) ∧
      v.mount.work = none ∧ v.engine.job = some { cmd := draw1, step := .drawStrikeA drawing1 entry1 } ∧
      exec (.strikeComplete []) (going v) = .next (after (.strikeComplete []) (going v)) ∧
      left (.strikeComplete []) v = some false :=
  have strikes : arrayEvent (.strikeComplete []) := .inr (.inr (.inr (.inl ⟨[], rfl⟩)))
  ⟨⟨rfl, nofun, rfl⟩, ⟨.inl rfl, rfl, rfl, rfl, rfl, by decide +kernel⟩,
    ⟨strikes, rfl, rfl, rfl, rfl, rfl, by decide +kernel⟩, rfl, rfl, rfl, by decide +kernel⟩

theorem witness_ChipSelectBoundsTransaction :
    (ready.pins.powered = true ∧ ready.pins.resetnLow = false ∧ ready.link.transaction = none) ∧
      (after .status (linked ready)).link.transaction =
        some { captured := 0x41, phase := .answering [0xFF, 0x00, 0x00] } ∧
      (after .collect (linked (holding 1))).link.transaction =
        some { captured := 0x41, phase := .collecting (0x00 :: Record.bytes finished1) } := by decide +kernel

theorem witness_TransactionBytesSpellCommands :
    ([0x00, 0x09, 0x3F, 0x80, 0xFF] : List Byte).all
        (fun c => c.toNat = 0 ∨ 9 ≤ c.toNat ∧ c.toNat < 0x40 ∨ 0x80 ≤ c.toNat) = true ∧
      ((0 : Byte).toNat = 0 ∧ 9 ≤ (9 : Byte).toNat) ∧ (immediateArguments 0x04 = some 4 ∧ ([0, 0, 0] : List Byte).length < 4) ∧
      (0x40 ≤ (0x40 : Byte).toNat ∧ (0x7F : Byte).toNat ≤ 0x7F ∧ (List.replicate 255 (0 : Byte)).length ≤ 255) ∧
      incompleteSubmission [0x40] = true := by decide +kernel

/-- A LIST of tag 255 into the last slot, a FORMAT of an UNFORMATTED part, and for each refusal a frame that reaches it. -/
theorem witness_SubmissionDecidedByFirstFailingCheck :
    (let s := linked (holding 7);
      State.decoding s 0x41 ∧ submissionCode 0x47 = true ∧
        requiredLength 0x47 [0, 0, 0, 0] = some (some 4) ∧ s.intake.restartPending = false ∧ s.part = .ready ∧
        (255 : Byte) ≠ 0 ∧ 255 ∉ State.tagsInUse s ∧ State.slotsInUse s < 8) ∧
      (let s := linked { ready with part := .unformatted };
        State.decoding s 0x41 ∧ submissionCode 0x4A = true ∧ requiredLength 0x4A [0, 0, 0, 0] = some (some 4) ∧
          s.intake.restartPending = false ∧ s.part = .unformatted ∧ 1 ∉ State.tagsInUse s ∧ State.slotsInUse s < 8) ∧
      (0 : Word) ≠ linkCrc [0x49, 1, 0] ∧
      (submissionCode 0x40 = true ∧ requiredLength 0x40 [] = none) ∧
      ((List.replicate 16 (0 : Byte)).length < 17 ∧ 17 ≤ (List.replicate 17 (0 : Byte)).length) ∧
      ((0x40 : Byte).toNat < 0x41 ∧ 0x4A < (0x4B : Byte).toNat) ∧
      (requiredLength 0x41 (List.replicate 16 0) = some none ∧ requiredLength 0x4A [0, 0, 0] = some (some 4)) ∧
      (linked State.reset).part = .mounting ∧
      1 ∈ State.tagsInUse (linked (holding 1)) ∧
      (9 ∉ State.tagsInUse (linked (holding 8)) ∧ 8 ≤ State.slotsInUse (linked (holding 8))) ∧
      incompleteSubmission [0x40] = true ∧ incompleteSubmission [0x7F, 1, 1, 0, 0, 0, 0] = true := by
  decide +kernel

theorem witness_StatusAndUnknownCodeAnswers :
    State.decoding (linked ready) 0x41 ∧
      ([0x00, 0x09, 0x3F, 0x80, 0xFF] : List Byte).all
        (fun c => c.toNat = 0 ∨ 9 ≤ c.toNat ∧ c.toNat < 0x40 ∨ 0x80 ≤ c.toNat) = true := by decide

theorem witness_CollectHandsOutHeadRecordWhole :
    (State.decoding (linked (restarting ready)) 0x41 ∧ (linked (restarting ready)).intake.restartPending = true) ∧
      (State.decoding (linked ready) 0x41 ∧ (linked ready).intake.results = []) ∧
      (State.decoding (linked (holding 8)) 0x41 ∧ (linked (holding 8)).intake.restartPending = false ∧
        (linked (holding 8)).intake.results = finished1 :: (finished 8).tail) ∧
      ((after .collect (linked (holding 1))).link.transaction =
          some { captured := 0x41, phase := .collecting (0x00 :: Record.bytes finished1) } ∧
        (after .collect (linked (holding 1))).intake.results = [finished1] ∧
        (State.tagsInUse (after .collect (linked (holding 1)))).Nodup) := by
  decide +kernel

theorem witness_InfoClearsFaultEvent : State.decoding (linked ready) 0x41 := by decide

theorem witness_SetEpochNeverLowers :
    let s : State := { linked ready with engine := { ready.engine with epoch := some 5 } }
    State.decoding s 0x41 ∧ s.part = .ready ∧ s.engine.epoch = some 5 ∧ (5 : Word).toNat ≤ (5 : Word).toNat ∧
      (4 : Word).toNat < (5 : Word).toNat ∧ (linked State.reset).part = .mounting ∧
      (linked State.reset).engine.epoch = none ∧ State.decoding (linked State.reset) 0x41 ∧
      ({ s with part := .formatting } : State).part = .formatting := by decide

theorem witness_HoldAndReleaseChangeOneHold :
    State.decoding (linked ready) 0x41 ∧ (15 : Byte).toNat = (15 : ClassNo).val ∧ (linked ready).part = .ready ∧
      State.decoding (linked State.reset) 0x41 ∧ (linked State.reset).part ≠ .ready ∧ 16 ≤ (16 : Byte).toNat := by
  decide

theorem witness_CancelRemovesWaitingCommand :
    (let s := queued (linked ready) { lookup1 with tag := 255 };
      State.decoding s 0x41 ∧ s.intake.restartPending = false ∧ (255 : Byte) ≠ 0 ∧
        s.intake.waiting = [] ++ { lookup1 with tag := 255 } :: [] ∧ (State.tagsInUse s).Nodup ∧
        1 ∉ State.tagsInUse s) ∧
      (linked (restarting ready)).intake.restartPending = true ∧
      (let s := busy (linked open1) lookup1 (.lookupRead snap1 entry1);
        State.decoding s 0x41 ∧ s.intake.restartPending = false ∧ (State.tagsInUse s).Nodup ∧
          s.engine.job = some { cmd := lookup1, step := .lookupRead snap1 entry1 } ∧ lookup1.tag = 1) ∧
      (let s := linked (holding 8);
        State.decoding s 0x41 ∧ s.intake.restartPending = false ∧ (State.tagsInUse s).Nodup ∧
          ∃ r ∈ s.intake.results, r.cmd.tag = 8) := by decide +kernel

theorem witness_NothingTakenOutOfTurn :
    (∀ captured, ¬ State.decoding ready captured) ∧
      (∀ captured, ¬ State.decoding (after .status (linked ready)) captured) ∧
      (busy open1 lookup1 (.lookupRead snap1 entry1)).engine.job ≠ none ∧ (restarting ready).intake.restartPending = true ∧
      State.reset.part = .mounting ∧ (after (.format []) (queued ready (command 0x4A [0, 0, 0, 0]))).part = .formatting :=
  ⟨nofun, nofun, nofun, rfl, rfl, by decide +kernel⟩

/-- With nothing progressing, and with a background ERASE progressing, on which the claim waits. -/
theorem witness_LookupAndRevokeDispatch :
    State.dispatchDue (queued ready lookup1) 0x42 lookup1 [] ∧ findEntry ready.index lookup1.key = none ∧
      findEntry [corrupt1] lookup1.key = some corrupt1 ∧ corrupt1.cls = none ∧
      State.dispatchDue (queued open1 lookup1) 0x42 lookup1 [] ∧ findEntry open1.index lookup1.key = some entry1 ∧
      entry1.cls ≠ none ∧ (queued open1 lookup1).ctrl.op = none ∧
      State.dispatchDue (working (queued open1 lookup1) background3) 0x42 lookup1 [] ∧
      (working (queued open1 lookup1) background3).ctrl.op = some background3 ∧ Op.isBackground background3 = true ∧
      State.dispatchDue (queued open1 (command 0x46 [0, 0, 0, 1])) 0x46 (command 0x46 [0, 0, 0, 1]) [] ∧
      State.dispatchDue (working (queued open1 (command 0x46 [0, 0, 0, 1])) background3) 0x46
        (command 0x46 [0, 0, 0, 1]) [] := by
  decide +kernel

/-- 1 and 1024 units pass in both modes, 0 and 1025 units and mode 2 do not. -/
theorem witness_DrawDispatch :
    (let cmd := command 0x43 [0, 0, 0, 1, 4, 0, 1];
        State.dispatchDue (queued open1 cmd) 0x43 cmd [] ∧ argNat16 cmd.args 4 = 1024 ∧ argByte cmd.args 6 = 1) ∧
      State.dispatchDue (queued open1 draw1) 0x43 draw1 [] ∧ 1 ≤ argNat16 draw1.args 4 ∧ argByte draw1.args 6 = 0 ∧
      State.dispatchDue (working (queued open1 draw1) background3) 0x43 draw1 [] ∧ Op.isBackground background3 = true ∧
      findEntry open1.index draw1.key = some entry1 ∧ findEntry ready.index draw1.key = none ∧
      findEntry [corrupt1] draw1.key = some corrupt1 ∧
      (let cmd := command 0x43 [0, 0, 0, 1, 4, 1, 0];
        State.dispatchDue (queued open1 cmd) 0x43 cmd [] ∧ ¬ argNat16 cmd.args 4 ≤ 1024) ∧
      (let cmd := command 0x43 [0, 0, 0, 1, 0, 1, 2];
        State.dispatchDue (queued open1 cmd) 0x43 cmd [] ∧ 1 ≤ argNat16 cmd.args 4 ∧
          ¬ (argByte cmd.args 6 = 0 ∨ argByte cmd.args 6 = 1)) ∧
      ([[0, 0, 0], [0, 1, 0], [4, 0, 0], [4, 1, 0], [0, 0, 1], [0, 1, 1], [4, 0, 1], [4, 1, 1], [0, 1, 2], [4, 0, 0xFF]] :
            List (List Byte)).map
          (fun a => drawArgs ([0, 0, 0, 1] ++ a)) =
        [none, some (1, .exact), some (1024, .exact), none, none, some (1, .upto), some (1024, .upto), none, none,
          none] := by decide +kernel

/-- The least and the greatest arguments that pass, then each range left by one. -/
theorem witness_IssueDispatch :
    (let args (key cls allowance window label : List Byte) : List Byte := key ++ cls ++ allowance ++ window ++ label;
        let least := args [0, 0, 0, 1] [0] [0, 1] (List.replicate 9 0) [0];
        let greatest :=
          args [0xFF, 0xFF, 0xFF, 0xFE] [15] [4, 0] [1, 0, 0, 0, 4, 0, 0, 0, 5] (24 :: List.replicate 24 0x41);
        (argWord least 0 ≠ 0 ∧ argWord least 0 ≠ 0xFFFFFFFF ∧ argNat16 least 5 = 1 ∧ argByte least 7 = 0 ∧
            (argByte least 16).toNat = 0 ∧ (argByte least 4).toNat = (0 : ClassNo).val) ∧
          (argWord greatest 0 ≠ 0 ∧ argWord greatest 0 ≠ 0xFFFFFFFF ∧ argNat16 greatest 5 = 1024 ∧
            argByte greatest 7 ≠ 0 ∧ (argWord greatest 8).toNat < (argWord greatest 12).toNat ∧
            (argByte greatest 16).toNat = 24 ∧ (argByte greatest 4).toNat = (15 : ClassNo).val) ∧
          ([least, greatest, args [0, 0, 0, 0] [0] [0, 1] (List.replicate 9 0) [0],
                args [0xFF, 0xFF, 0xFF, 0xFF] [0] [0, 1] (List.replicate 9 0) [0],
                args [0, 0, 0, 1] [16] [0, 1] (List.replicate 9 0) [0],
                args [0, 0, 0, 1] [0] [0, 0] (List.replicate 9 0) [0],
                args [0, 0, 0, 1] [0] [4, 1] (List.replicate 9 0) [0],
                args [0, 0, 0, 1] [0] [0, 1] [1, 0, 0, 0, 4, 0, 0, 0, 4] [0],
                args [0, 0, 0, 1] [0] [0, 1] (List.replicate 9 0) (25 :: List.replicate 25 0x41)] :
              List (List Byte)).map (fun a => (issueRecord a).isSome) =
            [true, true, false, false, false, false, false, false, false]) ∧
    State.dispatchDue (queued open1 issue2) 0x41 issue2 [] ∧ issueRecord issue2.args = some rec2 ∧
      State.dispatchDue (working (queued open1 issue2) background3) 0x41 issue2 [] ∧
      Op.isBackground background3 = true ∧
      open1.policies[rec2.cls] = .set (policy 1024) ∧ (policy 1024).windowRequired = false ∧
      ({ policy 1024 with windowRequired := true } : Policy).windowRequired = true ∧
      findEntry open1.index rec2.key = none ∧ findEntry [{ entry1 with key := 2 }] rec2.key = some { entry1 with key := 2 } ∧
      ({ open1.pools with free := [4] } : FramePools).free = 4 :: [] ∧
      (setClass open1.policies 15 .faulted)[rec2.cls] = .faulted ∧
      ready.policies[rec2.cls] = .unconfigured ∧ issueRecord (List.replicate 17 0) = none ∧
      rec2.window = none := by decide +kernel

/-- The dispatch with a suspended erase, a background ERASE, a background mark strike, a frame to reclaim, and none; then the
mark strike waited for, the demand ERASE, and its mark strike. -/
theorem witness_TakeFromEmptyPool :
    (let s := queued { open1 with pools := { open1.pools with free := [], reclaim := [] } } issue2;
        State.dispatchDue s 0x41 issue2 [] ∧ issueRecord issue2.args = some rec2 ∧
          s.policies[rec2.cls] = .set (policy 1024) ∧ (policy 1024).windowRequired = false ∧
          findEntry s.index rec2.key = none ∧ s.pools.free = [] ∧ s.pools.reclaim = [] ∧ s.ctrl.op = none ∧
          s.ctrl.suspended = none ∧
          ({ s.ctrl with suspended := some (erase3 .first .bodyErase) } : Controller).suspended =
            some (erase3 .first .bodyErase) ∧
          (working s background3).ctrl.op = some (.erase .background (erase3 .first .bodyErase) 0) ∧
          (working s (.strike 2 .background (markStrike 4))).ctrl.op = some (.strike 2 .background (markStrike 4)) ∧
          ({ s.pools with reclaim := [4] } : FramePools).reclaim = 4 :: [] ∧ 3 ≤ (4 : Frame).val) ∧
      (let s (reclaim : List Frame) (step : EngineStep) (op : Op) : State :=
          busy (working { open1 with pools := { open1.pools with reclaim := reclaim } } op) issue2 step;
        let m (stuck : FrameBits) := Memory.image (Memory.strike open1.array 2 (Strike.intended (markStrike 4)) stuck) 2;
        let u := waiting (s [4, 5] (.takeWait writing2) (.strike 2 .background (markStrike 4))) .demand;
        (u.mount.work = none ∧ u.intake.restartPending = false ∧ u.pools.free = [] ∧ u.ctrl.suspended = none ∧
            u.ctrl.op = some (.strike 2 .background (markStrike 4)) ∧ u.ctrl.waiting = some .demand ∧
            u.engine.job = some { cmd := issue2, step := .takeWait writing2 } ∧ u.pools.reclaim = 4 :: [5] ∧
            Strike.verifies (markStrike 4) (m []) = true ∧ Strike.verifies (markStrike 4) (m [(0, 0x08)]) = false) ∧
          (let e : Erase := { frame := 4, attempt := .retry, stage := .blankVerify, progress := 0 };
            let v := s [4, 5] (.takeErase writing2) (.erase .foreground e 0);
            v.ctrl.op = some (.erase .foreground e 0) ∧ e.stage = .blankVerify ∧ 3 ≤ e.frame.val ∧ e.attempt = .retry ∧
              v.engine.job = some { cmd := issue2, step := .takeErase writing2 } ∧
              Image.blank (Memory.image open1.array 4) = true) ∧
          let x := s [4] (.takeMark 4 writing2) (.strike 2 .foreground (markStrike 4));
          x.ctrl.op = some (.strike 2 .foreground (markStrike 4)) ∧ x.ctrl.waiting = none ∧
            x.engine.job = some { cmd := issue2, step := .takeMark 4 writing2 } ∧
            (x.pools.reclaim.filter fun g => g ≠ (4 : Frame)) = []) := by decide +kernel

/-- A demand ERASE fails at its retry, at the blank verify and in stage 1 (`failed_attempts`). -/
theorem witness_TakeFromEmptyPool_failed :
    let s := busy open1 issue2 (.takeErase writing2)
    s.mount.work = none ∧ s.intake.restartPending = false ∧ s.pools.free = [] ∧ s.ctrl.suspended = none ∧
      (∀ t ∈ [blankFails s .foreground 3 .retry, retirementFails s .foreground 3 .retry],
        t.engine.job = some { cmd := issue2, step := .takeErase writing2 }) := by decide +kernel

theorem witness_TopupAndMoveDispatch :
    State.dispatchDue (queued open1 topup1) 0x44 topup1 [] ∧ topupArgs topup1.args = some (1020, none) ∧
      topupArgs [0, 0, 0, 1, 4, 0, 0, 0, 0, 0, 0, 0, 0, 0, 0] = none ∧
      findEntry open1.index topup1.key = some entry1 ∧ entry1.cls ≠ none ∧ (queued open1 topup1).ctrl.op = none ∧
      findEntry [corrupt1] topup1.key = some corrupt1 ∧ corrupt1.cls = none ∧
      findEntry ready.index topup1.key = none ∧
      State.dispatchDue (queued open1 (command 0x45 [0, 0, 0, 1])) 0x45 (command 0x45 [0, 0, 0, 1]) [] ∧
      State.dispatchDue (working (queued open1 topup1) background3) 0x44 topup1 [] ∧
      State.dispatchDue (working (queued open1 (command 0x45 [0, 0, 0, 1])) background3) 0x45
        (command 0x45 [0, 0, 0, 1]) [] ∧ Op.isBackground background3 = true ∧
      ([[0, 0, 0, 0, 0, 0, 0, 0, 0, 0, 0], [0, 1, 0, 0, 0, 0, 0, 0, 0, 0, 0], [3, 0xFF, 1, 0, 0, 0, 4, 0, 0, 0, 5],
              [4, 0, 0, 0, 0, 0, 0, 0, 0, 0, 0], [0, 1, 1, 0, 0, 0, 4, 0, 0, 0, 4]] : List (List Byte)).map
          (fun a => topupArgs ([0, 0, 0, 1] ++ a)) =
        [none, some (1, none), some (1023, some { opens := 4, closes := 5 }), none, none] := by
  decide +kernel

theorem witness_ListReturnsPage :
    State.dispatchDue (queued open1 (command 0x47 [0, 0, 0, 0])) 0x47 (command 0x47 [0, 0, 0, 0]) [] ∧
      State.indexOk open1 := by decide +kernel

theorem witness_ConfigureClassDispatch :
    let good := command 0x48 [15, 1, 1, 1, 1, 0, 0, 4, 0]
    let bad := command 0x48 [15, 1, 1, 1, 1, 0, 0, 4, 1]
    let high := command 0x48 [16, 1, 1, 1, 1, 0, 0, 4, 0]
    State.dispatchDue (queued ready good) 0x48 good [] ∧ configureArgs good.args = some (15, policy 1024) ∧
      ready.policies[(15 : ClassNo)] = .unconfigured ∧ (queued ready good).ctrl.op = none ∧
      State.dispatchDue (working (queued ready good) background3) 0x48 good [] ∧ Op.isBackground background3 = true ∧
      open1.policies[(15 : ClassNo)] = .set (policy 1024) ∧
      (setClass ready.policies 15 .faulted)[(15 : ClassNo)] = .faulted ∧
      (configureArgs bad.args = none ∧ (argByte bad.args 0).toNat < 16) ∧
      (configureArgs high.args = none ∧ 16 ≤ (argByte high.args 0).toNat) ∧
      (∀ i : Nat, i ≤ 6 → 1 ≤ i → argByte good.args i = 0 ∨ argByte good.args i = 1) ∧ argNat16 good.args 7 = 1024 ∧
      ([[0, 0, 0, 0, 0, 0, 0, 0, 1], [15, 1, 1, 1, 1, 1, 1, 4, 0], [0, 0, 0, 0, 0, 0, 0, 0, 0], [0, 0, 0, 0, 0, 0, 0, 4, 1],
              [0, 2, 0, 0, 0, 0, 0, 0, 1], [0, 0, 0, 0, 0, 0, 2, 0, 1], [16, 0, 0, 0, 0, 0, 0, 0, 1]] :
            List (List Byte)).map (fun a => (configureArgs a).map fun q => q.1.val) =
        [some 0, some 15, none, none, none, none, none] := by decide +kernel

/-- The dispatch, the strike of a member with another behind it, and that of the last, verified and failed. -/
theorem witness_PurgeOrphansMovesMembers :
    ([3, 2047] : List Frame).Pairwise (· < ·) ∧
    (let s := queued ready (command 0x49 []);
        State.dispatchDue s 0x49 (command 0x49 []) [] ∧ s.pools.quarantine = [] ∧ s.ctrl.op = none ∧
          State.dispatchDue (working s background3) 0x49 (command 0x49 []) [] ∧ Op.isBackground background3 = true ∧
          ({ s.pools with quarantine := [3, 2047] } : FramePools).quarantine = 3 :: [2047]) ∧
      (let s (f : Frame) (rest : List Frame) :=
          working (busy ready (command 0x49 []) (.purgeStrike rest 0 0)) (.strike f .foreground (.bits [(0, 0xF0)]));
        let m (stuck : FrameBits) := Memory.image (Memory.strike [] 2047 [(0, 0xF0)] stuck) 2047;
        (s 3 [2047]).ctrl.op = some (.strike 3 .foreground (.bits [(0, 0xF0)])) ∧ 3 ≤ (3 : Frame).val ∧
          (s 3 [2047]).mount.work = none ∧ (s 3 [2047]).intake.restartPending = false ∧
          (s 3 [2047]).engine.job = some { cmd := command 0x49 [], step := .purgeStrike (2047 :: []) 0 0 } ∧
          (s 2047 []).engine.job = some { cmd := command 0x49 [], step := .purgeStrike [] 0 0 } ∧
          Strike.verifies (.bits [(0, 0xF0)]) (m []) = true ∧
          Strike.verifies (.bits [(0, 0xF0)]) (m [(0, 0x10)]) = false) := by decide +kernel

theorem witness_FormatDispatch :
    let s := queued ready (command 0x4A [0, 0, 0, 0])
    s.engine.job = none ∧ s.intake.restartPending = false ∧ s.intake.waiting = command 0x4A [0, 0, 0, 0] :: [] ∧
      (command 0x4A [0, 0, 0, 0]).code = 0x4A ∧ s.part = .ready ∧
      ({ s with part := .faulted } : State).part = .faulted ∧ (∀ op, s.ctrl.op = some op → Op.isBackground op = true) ∧
      ∀ op, (working s background3).ctrl.op = some op → Op.isBackground op = true :=
  ⟨rfl, rfl, rfl, rfl, rfl, rfl, nofun, fun _ h => by cases h; rfl⟩

theorem witness_ArrayChangesOnlyByArrayWork :
    let s := front (.markerRetirement 0 []) (working ready (.erase .foreground (erase3 .first .markerRetirement) 0))
    step s = .next (stepped s) ∧ (stepped s).array ≠ s.array := ⟨rfl, by decide +kernel⟩

theorem witness_LookupReadReports :
    let s := working (busy open1 lookup1 (.lookupRead snap1 entry1)) (.read 3)
    s.ctrl.op = some (.read 3) ∧ s.mount.work = none ∧
      s.engine.job = some { cmd := lookup1, step := .lookupRead snap1 entry1 } ∧ s.intake.restartPending = false ∧
      Image.soundFor (Memory.image s.array 3) entry1 = true ∧ Image.soundFor (Memory.image [] 3) entry1 = false := by
  decide +kernel

/-- Exactly what remains, one unit more, and one unit above the policy's limit. -/
theorem witness_DrawReadChecksInOrder :
    let s := working (busy open1 draw1 (.drawRead snap1 entry1)) (.read 3)
    let g := Image.grant (Memory.image s.array 3)
    s.ctrl.op = some (.read 3) ∧ s.mount.work = none ∧
      s.engine.job = some { cmd := draw1, step := .drawRead snap1 entry1 } ∧ s.intake.restartPending = false ∧
      drawArgs draw1.args = some (4, .exact) ∧ Image.soundFor (Memory.image s.array 3) entry1 = true ∧
      grantCondition snap1.policies[g.cls] snap1.holds[g.cls] snap1.epoch g = .isOpen ∧
      snap1.policies[g.cls] = .set (policy 1024) ∧ (policy 1024).drawPermitted = true ∧
      4 ≤ (policy 1024).maxUnits ∧ 4 ≤ g.allowance - max g.countA g.countB ∧
      (policy 3).maxUnits < 4 ∧ Image.soundFor (Memory.image [] 3) entry1 = false ∧
      grantCondition snap1.policies[g.cls] true snap1.epoch g ≠ .isOpen ∧
      (let h := Image.grant (Memory.image (live { rec1 with allowance := 3 }) 3);
        h.allowance - max h.countA h.countB < 4) := by decide +kernel

theorem witness_DrawStrikesComplete :
    (let s (step : EngineStep) := working (busy open1 draw1 step) (.strike 3 .foreground (tallyStrike tallyA 0 4));
      (s (.drawStrikeA drawing1 entry1)).ctrl.op = some (.strike 3 .foreground (tallyStrike tallyA 0 4)) ∧
        3 ≤ (3 : Frame).val ∧ (s (.drawStrikeA drawing1 entry1)).mount.work = none ∧
        (s (.drawStrikeA drawing1 entry1)).intake.restartPending = false ∧
        (s (.drawStrikeA drawing1 entry1)).engine.job = some { cmd := draw1, step := .drawStrikeA drawing1 entry1 }) ∧
      (let what := tallyStrike tallyB 0 4;
        let s (d : Drawing) (verifiedA : Bool) :=
          working (busy open1 draw1 (.drawStrikeB d entry1 verifiedA)) (.strike 3 .foreground what);
        (s drawing1 true).ctrl.op = some (.strike 3 .foreground what) ∧ (s drawing1 true).mount.work = none ∧
          (s drawing1 true).intake.restartPending = false ∧
          (s drawing1 true).engine.job = some { cmd := draw1, step := .drawStrikeB drawing1 entry1 true } ∧
          (s drawing1 false).engine.job = some { cmd := draw1, step := .drawStrikeB drawing1 entry1 false } ∧
          Strike.verifies what (Memory.image (Memory.strike open1.array 3 (Strike.intended what) []) 3) = true ∧
          Strike.verifies what (Memory.image (Memory.strike open1.array 3 (Strike.intended what) [(192, 0x80)]) 3) =
            false) ∧
      drawing1.grant.allowance - (max drawing1.grant.countA drawing1.grant.countB + drawing1.units) = 0 ∧
      drawing1.retire = true ∧ ({ drawing1 with retire := false } : Drawing).retire = false ∧
      (let s := working (busy open1 draw1 (.drawReadBack drawing1 entry1)) (.read 3);
        s.ctrl.op = some (.read 3) ∧ s.mount.work = none ∧ s.intake.restartPending = false ∧
          s.engine.job = some { cmd := draw1, step := .drawReadBack drawing1 entry1 } ∧
          Image.soundFor (Memory.image s.array 3) entry1 = true ∧ Image.soundFor (Memory.image [] 3) entry1 = false) ∧
      drawing1.grant.allowance -
          (max drawing1.grant.countA drawing1.grant.countB + ({ drawing1 with units := 3 } : Drawing).units) ≠ 0 := by
  decide +kernel

/-- R56, log entry 32: both strikes failed, the lagging copy A (0 against 1) read back at 1: ARRAY_FAULT with no unit drawn, 3
remaining, DEGRADED and SKEW_REPAIRED. -/
theorem test_read_back_of_the_lagging_copy :
    let m := Memory.strike (live rec1) 3 [(64, 0x80), (192, 0x80)] []
    let d : Drawing := { grant := { grant1 with countB := 1 }, units := 1, retire := false }
    let s := working (busy { open1 with array := m } draw1 (.drawReadBack d entry1)) (.read 3)
    (after .readComplete s).intake.results.map (fun r => r.result) =
      [{ outcome := .arrayFault, flags := { degraded := true, skewRepaired := true }
         payload := .draw 1 (some 0) 0 (some 3) }] := by decide +kernel

theorem witness_StrikeTurnsOnlyIntendedBits :
    let s := working open1 (.strike 2047 .foreground (.bits [(511, 0x01)]))
    State.arrayOk s ∧ s.ctrl.op = some (.strike 2047 .foreground (.bits [(511, 0x01)])) ∧
      Instr.strikeComplete [] = .strikeComplete [] := by decide +kernel

/-- Each of the three strikes, verified and failed, for an ISSUE and a relocation; the mark strike after the second and the third
failure. -/
theorem witness_NewRecordStrikesComplete :
    ([entry1].Pairwise (fun c d : Entry => c.key.toNat < d.key.toNat) ∧
        ∀ d ∈ [entry1], d.key ≠ ({ entry1 with key := 0 } : Entry).key) ∧
    (let s (step : EngineStep) (what : Strike) := working (busy ready issue2 step) (.strike 3 .foreground what);
      let m (what : Strike) (stuck : FrameBits) := Memory.image (Memory.strike [] 3 (Strike.intended what) stuck) 3;
      let u := s (.openingStrike writing2) (markerStrike 0x80);
      u.mount.work = none ∧ u.intake.restartPending = false ∧ u.ctrl.op = some (.strike 3 .foreground (markerStrike 0x80)) ∧
        3 ≤ (3 : Frame).val ∧ u.engine.job = some { cmd := issue2, step := .openingStrike writing2 } ∧
        (s (.bodyStrike writing2) (recordStrike rec2)).engine.job =
          some { cmd := issue2, step := .bodyStrike writing2 } ∧
        (s (.liveStrike writing2) (markerStrike 0x40)).engine.job =
          some { cmd := issue2, step := .liveStrike writing2 } ∧ writing2.old = none ∧
        (s (.liveStrike writing1) (markerStrike 0x40)).engine.job =
          some { cmd := issue2, step := .liveStrike writing1 } ∧ writing1.old = some (oldGrant 3 grant1) ∧
        Strike.verifies (markerStrike 0x80) (m (markerStrike 0x80) []) = true ∧
        Strike.verifies (markerStrike 0x80) (m (markerStrike 0x80) [(0, 0x80)]) = false ∧
        Strike.verifies (recordStrike rec2) (m (recordStrike rec2) []) = true ∧
        Strike.verifies (recordStrike rec2) (m (recordStrike rec2) [(1, 0xFF)]) = false ∧
        Strike.verifies (markerStrike 0x40) (m (markerStrike 0x40) []) = true ∧
        Strike.verifies (markerStrike 0x40) (m (markerStrike 0x40) [(0, 0x40)]) = false) ∧
      (let s (n : Nat) :=
          working (busy ready issue2 (.newFrameMark 3 { writing2 with failed := n })) (.strike 2 .foreground (markStrike 3));
        (s 1).ctrl.op = some (.strike 2 .foreground (markStrike 3)) ∧ (s 1).mount.work = none ∧
          (s 1).engine.job = some { cmd := issue2, step := .newFrameMark 3 { writing2 with failed := 1 } } ∧
          ({ writing2 with failed := 1 } : Writing).failed < 2 ∧ 2 ≤ ({ writing2 with failed := 2 } : Writing).failed ∧
          (s 1).pools.free = [] ∧ (s 1).pools.reclaim = [] ∧ (s 1).ctrl.suspended = none ∧
          ({ (s 1).pools with reclaim := [4] } : FramePools).reclaim = 4 :: [] ∧
          ({ (s 1).ctrl with suspended := some (erase3 .first .bodyErase) } : Controller).suspended =
            some (erase3 .first .bodyErase) ∧
          ({ (s 1).pools with free := [4] } : FramePools).free = 4 :: []) := by decide +kernel

/-- A TOPUP by 1020 units of a grant of 4 is at the limit, of a grant of 5 over it; a spent grant has r = 0. -/
theorem witness_RelocationReadChecks :
    (let s := working (busy open1 topup1 (.topupRead snap1 entry1)) (.read 3);
      let g := Image.grant (Memory.image s.array 3);
      s.ctrl.op = some (.read 3) ∧ s.mount.work = none ∧ s.intake.restartPending = false ∧
        s.engine.job = some { cmd := topup1, step := .topupRead snap1 entry1 } ∧
        topupArgs topup1.args = some (1020, none) ∧ Image.soundFor (Memory.image s.array 3) entry1 = true ∧
        snap1.policies[g.cls] = .set (policy 1024) ∧ (policy 1024).topupPermitted = true ∧
        g.topups ≠ 255 ∧ g.allowance - max g.countA g.countB + 1020 ≤ 1024 ∧ ready.policies[g.cls] = .unconfigured) ∧
      (let img := Memory.image (live { rec1 with allowance := 5 }) 3;
        Image.soundFor img entry1 = true ∧
          1024 < (Image.grant img).allowance - max (Image.grant img).countA (Image.grant img).countB + 1020) ∧
      (Image.grant (Memory.image (live { rec1 with topups := 255 }) 3)).topups = 255 ∧
      Image.soundFor (Memory.image [] 3) entry1 = false ∧
      (let img := Memory.image (Memory.strike (live { rec1 with allowance := 1 }) 3 [(64, 0x80)] []) 3;
        Image.soundFor img entry1 = true ∧
          (Image.grant img).allowance - max (Image.grant img).countA (Image.grant img).countB = 0) ∧
      (let s := working (busy open1 (command 0x45 [0, 0, 0, 1]) (.moveRead entry1)) (.read 3);
        s.engine.job = some { cmd := command 0x45 [0, 0, 0, 1], step := .moveRead entry1 } ∧
          1 ≤ grant1.allowance - max grant1.countA grant1.countB) ∧
      ({ open1.pools with free := [4] } : FramePools).free = 4 :: [] ∧ open1.pools.free = [] ∧
      open1.pools.reclaim = [] ∧ open1.ctrl.suspended = none ∧
      ({ open1.pools with reclaim := [4] } : FramePools).reclaim = 4 :: [] ∧ 3 ≤ (4 : Frame).val ∧
      ({ open1.ctrl with suspended := some (erase3 .first .bodyErase) } : Controller).suspended =
        some (erase3 .first .bodyErase) := by decide +kernel

theorem witness_RelocationRepointsEntry :
    let s :=
      working (busy open1 (command 0x45 [0, 0, 0, 1]) (.movedStrike writing1 (oldGrant 3 grant1) 4))
        (.strike 3 .foreground (markerStrike 0x20))
    let m (stuck : FrameBits) := Memory.image (Memory.strike s.array 3 (Strike.intended (markerStrike 0x20)) stuck) 3
    s.ctrl.op = some (.strike 3 .foreground (markerStrike 0x20)) ∧ 3 ≤ (3 : Frame).val ∧ s.mount.work = none ∧
      s.intake.restartPending = false ∧ writing1.old = some (oldGrant 3 grant1) ∧ (oldGrant 3 grant1).frame = 3 ∧
      s.engine.job =
        some { cmd := command 0x45 [0, 0, 0, 1], step := .movedStrike writing1 (oldGrant 3 grant1) 4 } ∧
      Strike.verifies (markerStrike 0x20) (m []) = true ∧ Strike.verifies (markerStrike 0x20) (m [(0, 0x20)]) = false := by
  decide +kernel

theorem witness_RevokeReadTakesPath :
    let cmd := command 0x46 [0, 0, 0, 1]
    let s (e : Entry) := working (busy open1 cmd (.revokeRead snap1 e)) (.read 3)
    ((s corrupt1).ctrl.op = some (.read 3) ∧ (s corrupt1).mount.work = none ∧
        (s corrupt1).intake.restartPending = false ∧
        (s corrupt1).engine.job = some { cmd := cmd, step := .revokeRead snap1 corrupt1 } ∧ corrupt1.cls = none ∧
        Memory.image open1.array 3 0 &&& 0xF0 ≠ 0 ∧ Memory.image [(1536, 0x0F)] 3 0 &&& 0xF0 = 0) ∧
      entry1.cls ≠ none ∧ Image.soundFor (Memory.image [(1536, 0x0F)] 3) entry1 = false ∧
      Image.soundFor (Memory.image open1.array 3) entry1 = true ∧
      snap1.policies[(Image.grant (Memory.image open1.array 3)).cls] = .set (policy 1024) ∧
      (policy 1024).revokePermitted = true ∧
      (Image.grant (Memory.image open1.array 3)).cls = 15 ∧ ready.policies[(15 : ClassNo)] = .unconfigured ∧
      ∀ p : Policy, ClassStatus.unconfigured = .set p → p.revokePermitted = false :=
  ⟨by decide +kernel, by decide, by decide +kernel, by decide +kernel, by decide +kernel, rfl, by decide +kernel,
    by decide +kernel, nofun⟩

/-- The RETIRED strike, the fallback ERASE and the mark strike after it, each verified and failed; a failed ERASE at its retry,
at the blank verify and in stage 1 (`failed_attempts`). -/
theorem witness_RetiredStrikeAndFallback :
    let cmd := command 0x46 [0, 0, 0, 1]
    let ending := revokeEnding 1 3 0 false
    (let s := working (busy open1 cmd (.retiredStrike ending)) (.strike 3 .foreground (markerStrike 0x30));
      let m (stuck : FrameBits) := Memory.image (Memory.strike s.array 3 (Strike.intended (markerStrike 0x30)) stuck) 3;
      s.ctrl.op = some (.strike 3 .foreground (markerStrike 0x30)) ∧ 3 ≤ (3 : Frame).val ∧ s.mount.work = none ∧
        s.intake.restartPending = false ∧ s.engine.job = some { cmd := cmd, step := .retiredStrike ending } ∧
        Strike.verifies (markerStrike 0x30) (m []) = true ∧
        Strike.verifies (markerStrike 0x30) (m [(0, 0x10)]) = false) ∧
      (let e := erase3 .retry .blankVerify;
        let s := working (busy ready cmd (.fallbackErase ending.fallback ending.lost)) (.erase .foreground e 0);
        s.mount.work = none ∧ s.intake.restartPending = false ∧ s.ctrl.op = some (.erase .foreground e 0) ∧
          e.stage = .blankVerify ∧ 3 ≤ e.frame.val ∧ e.attempt = .retry ∧
          s.engine.job = some { cmd := cmd, step := .fallbackErase ending.fallback ending.lost } ∧
          Image.blank (Memory.image ready.array 3) = true ∧
          ∀ t ∈ [blankFails s .foreground 3 .retry, retirementFails s .foreground 3 .retry],
            t.mount.work = none ∧ t.intake.restartPending = false ∧
              t.engine.job = some { cmd := cmd, step := .fallbackErase ending.fallback ending.lost }) ∧
      (let s :=
          working (busy ready cmd (.fallbackMark 3 ending.fallback ending.lost)) (.strike 2 .foreground (markStrike 3));
        s.mount.work = none ∧ s.intake.restartPending = false ∧ s.ctrl.op = some (.strike 2 .foreground (markStrike 3)) ∧
          s.engine.job = some { cmd := cmd, step := .fallbackMark 3 ending.fallback ending.lost }) := by decide +kernel

theorem witness_ConfigureStrikeCompletes :
    let cmd := command 0x48 [15, 1, 1, 1, 1, 0, 0, 4, 0]
    let what := policyStrike 15 (policy 1024)
    let s := working (busy ready cmd (.configureStrike 15 (policy 1024))) (.strike 1 .foreground what)
    let m (stuck : FrameBits) := Memory.image (Memory.strike s.array 1 (Strike.intended what) stuck) 1
    let u := working (busy ready cmd (.configureRead 15)) (.read 1)
    (s.ctrl.op = some (.strike 1 .foreground what) ∧ s.mount.work = none ∧ s.intake.restartPending = false ∧
        s.engine.job = some { cmd := cmd, step := .configureStrike 15 (policy 1024) } ∧
        Strike.verifies what (m []) = true ∧ Strike.verifies what (m [(480, 0x80)]) = false) ∧
      u.ctrl.op = some (.read 1) ∧ u.mount.work = none ∧ u.intake.restartPending = false ∧
        u.engine.job = some { cmd := cmd, step := .configureRead 15 } := by decide +kernel

/-- The READs of frames 0, 2 and 1, the first with no command in progress and with the FORMAT before the mount. -/
theorem witness_MountReadsSystemFrames :
    let fm : Formatting := { label := 0, erased := 0, newlyBad := 0, systemFailures := 0 }
    let s := State.reset
    let at_ (step : MountStep) (f : Frame) : State :=
      working { ready with part := .mounting, mount := { ready.mount with work := some { step := step, scanned := [] } } }
        (.read f)
    (s.ctrl.op = some (.read 0) ∧ s.mount.work = some { step := .readFormat, scanned := [] } ∧ s.engine.job = none ∧
        (busy s (command 0x4A [0, 0, 0, 0]) (.formatMount fm)).engine.job =
          some { cmd := command 0x4A [0, 0, 0, 0], step := .formatMount fm } ∧ s.intake.restartPending = false ∧
        Image.blank (Memory.image [] 0) = true ∧
        (let img := Memory.image [(511, 0)] 0;
          Image.blank img = false ∧ Image.formatValid img = false) ∧
        (let img := Memory.image (Memory.strike [] 0 (Strike.intended (.field 0 (formatBytes 0xFFFFFFFF))) []) 0;
          Image.blank img = false ∧ Image.formatValid img = true)) ∧
      ((at_ .readMap 2).ctrl.op = some (.read 2) ∧
        (at_ .readMap 2).mount.work = some { step := .readMap, scanned := [] }) ∧
      (at_ .readPolicies 1).ctrl.op = some (.read 1) ∧
        (at_ .readPolicies 1).mount.work = some { step := .readPolicies, scanned := [] } ∧
        nextFrame (at_ .readPolicies 1).pools.bad 2048 3 = some 3 := by decide +kernel

/-- Each classification; the next frame, and the last one, with distinct keys and with a pair. -/
theorem witness_ScanClassifiesFrame :
    let s := scanning []
    let c (f : Frame) (k : Word) : Candidate := { frame := f, marker := 0x3F, key := k, gen := 0, sound := none }
    s.ctrl.op = some (.read 2046) ∧ s.mount.work = some { step := .scanRead, scanned := [] } ∧
      nextFrame s.pools.bad 2048 ((2046 : Frame).val + 1) = some 2047 ∧
      nextFrame s.pools.bad 2048 ((2047 : Frame).val + 1) = none ∧
      (([] ++ [c 3 1, c 4 2]).map fun p : Candidate => p.key).Nodup ∧
      ([c 3 1, c 4 1] = [c 3 1] ++ c 4 1 :: [] ∧ (([] ++ [c 3 1]).map fun p : Candidate => p.key).Nodup ∧
        c 3 1 ∈ [] ++ [c 3 1] ∧ (c 3 1).key = (c 4 1).key) ∧
      (phaseOf 0xBF ≠ .blank ∧ transitionBits (phaseOf 0xBF) 0xBF ≠ 0) ∧
      (phaseOf (Memory.image [] 2046 0) = .blank ∧ ∀ o < 512, Memory.image [] 2046 o = 0xFF) ∧
      (phaseOf (Memory.image [(1048063, 0)] 2046 0) = .blank ∧ ¬ ∀ o < 512, Memory.image [(1048063, 0)] 2046 o = 0xFF) ∧
      (phaseOf 0x7F = .opening ∧ transitionBits (phaseOf 0x7F) 0x7F = 0) ∧
      (phaseOf 0x3F = .live ∧ transitionBits (phaseOf 0x3F) 0x3F = 0 ∧
        Image.keyPairConsistent (Memory.image [(1047552, 0x3F)] 2046) = false) ∧
      Image.keyPairConsistent (Memory.image (live rec1) 3) = true ∧
      (phaseOf 0x1F = .moved ∧ transitionBits (phaseOf 0x1F) 0x1F = 0) ∧
      phaseOf 0x0F = .retired ∧ transitionBits (phaseOf 0x0F) 0x0F = 0 := by decide +kernel

/-- Each of mount's own strikes and its fallback ERASE, verified and failed (`failed_attempts`). -/
theorem witness_MountEndsFrames :
    let s (step : MountStep) (op : Op) : State :=
      working { ready with part := .mounting, mount := { ready.mount with work := some { step := step, scanned := [] } } } op
    let what : Strike := .bits [(0, 0x70)]
    let m (stuck : FrameBits) := Memory.image (Memory.strike [] 2047 (Strike.intended what) stuck) 2047
    let e : Erase := { frame := 2047, attempt := .retry, stage := .blankVerify, progress := 0 }
    let next : MountNext := .resolve [] []
    (∀ step ∈ [.regularise .orphan, .regularise .superseded, .regularise .ended, .regularise .abandoned,
          .regularise (.candidate { frame := 2047, marker := 0xBF, key := 1, gen := 0, sound := none }), .retire,
          MountStep.movedStrike .scan, .movedStrike next],
        (s step (.strike 2047 .foreground what)).mount.work = some { step := step, scanned := [] } ∧
          (s step (.strike 2047 .foreground what)).ctrl.op = some (.strike 2047 .foreground what)) ∧
      3 ≤ (2047 : Frame).val ∧ Strike.verifies what (m []) = true ∧ Strike.verifies what (m [(0, 0x10)]) = false ∧
      ((s (.fallbackErase next) (.erase .foreground e 0)).ctrl.op = some (.erase .foreground e 0) ∧
        (s (.fallbackErase next) (.erase .foreground e 0)).mount.work =
          some { step := .fallbackErase next, scanned := [] } ∧ e.stage = .blankVerify ∧ e.attempt = .retry ∧
        Image.blank (Memory.image [] 2047) = true ∧
        ∀ t ∈ [blankFails, retirementFails],
          (t (s (.fallbackErase next) (.read 3)) .foreground 2047 .retry).mount.work =
            some { step := .fallbackErase next, scanned := [] }) ∧
      (s (.fallbackMark 2047 next) (.strike 2 .foreground (markStrike 2047))).ctrl.op =
          some (.strike 2 .foreground (markStrike 2047)) ∧
        (s (.fallbackMark 2047 next) (.strike 2 .foreground (markStrike 2047))).mount.work =
          some { step := .fallbackMark 2047 next, scanned := [] } := by decide +kernel

theorem witness_WalkPlacesFrames :
    let fm : Formatting := { label := 0, erased := 0, newlyBad := 0, systemFailures := 0 }
    let c (sound : Option (ClassNo × Nat)) : Candidate :=
      { frame := 2047, marker := 0x3F, key := 1, gen := 0, sound := sound }
    let s (scanned : List (Frame × Placement)) : State :=
      { ready with
          part := .mounting, mount := { ready.mount with work := some { step := .walk, scanned := scanned } } }
    (∀ p ∈ [Placement.free, .reclaim, .quarantine, .candidate (c (some (15, 4))), .candidate (c none)],
        (s [(2047, p)]).pending = [] ∧
          (s [(2047, p)]).mount.work = some { step := .walk, scanned := (2047, p) :: [] }) ∧
      (c (some (15, 4))).sound = some (15, 4) ∧ (c none).sound = none ∧
      ((s []).mount.work = some { step := .walk, scanned := [] } ∧ (s []).engine.job = none ∧
        (busy (s []) (command 0x4A [0, 0, 0, 0]) (.formatMount fm)).engine.job =
          some { cmd := command 0x4A [0, 0, 0, 0], step := .formatMount fm } ∧ (s []).intake.restartPending = false) ∧
      ready.pending = [] ∧ ready.mount.work = none := by decide +kernel

/-- The ERASEs of frames 0, 1 and of grant frames, verified and failed (`failed_attempts`), the mark strike and the record
strike. -/
theorem witness_FormatSweepsAndMounts :
    let fm : Formatting := { label := 0, erased := 0, newlyBad := 0, systemFailures := 0 }
    let cmd := command 0x4A [0, 0, 0, 0]
    let e (f : Frame) (a : Attempt) : Erase := { frame := f, attempt := a, stage := .blankVerify, progress := 0 }
    let s (f : Frame) (a : Attempt) := working (busy ready cmd (.formatErase fm)) (.erase .foreground (e f a) 0)
    (let u := working (busy ready cmd (.formatMapRead fm)) (.read 2);
        u.mount.work = none ∧ u.ctrl.op = some (.read 2) ∧ u.engine.job = some { cmd := cmd, step := .formatMapRead fm }) ∧
      ((s 0 .retry).mount.work = none ∧ (s 0 .retry).ctrl.op = some (.erase .foreground (e 0 .retry) 0) ∧
        (s 0 .retry).engine.job = some { cmd := cmd, step := .formatErase fm } ∧ (e 0 .retry).stage = .blankVerify) ∧
      (s 1 .retry).ctrl.op = some (.erase .foreground (e 1 .retry) 0) ∧
      Image.blank (Memory.image [] 0) = true ∧ Image.blank (Memory.image [] 1) = true ∧
      (∀ f ∈ ([0, 1, 3] : List Frame), ∀ t ∈ [blankFails (s 0 .first), retirementFails (s 0 .first)],
        (t .foreground f .retry).mount.work = none ∧
          (t .foreground f .retry).engine.job = some { cmd := cmd, step := .formatErase fm }) ∧
      (nextFrame (s 1 .first).pools.bad 2048 3 = some 3 ∧ 3 ≤ (3 : Frame).val) ∧
      nextFrame (s 3 .first).pools.bad 2048 ((3 : Frame).val + 1) = some 4 ∧
      nextFrame (s 2047 .first).pools.bad 2048 ((2047 : Frame).val + 1) = none ∧
      (let t := working (busy ready cmd (.formatMark 3 fm)) (.strike 2 .foreground (markStrike 3));
        let m (stuck : FrameBits) := Memory.image (Memory.strike t.array 2 (Strike.intended (markStrike 3)) stuck) 2;
        t.ctrl.op = some (.strike 2 .foreground (markStrike 3)) ∧
          t.engine.job = some { cmd := cmd, step := .formatMark 3 fm } ∧ Strike.verifies (markStrike 3) (m []) = true ∧
          Strike.verifies (markStrike 3) (m [(0, 0x10)]) = false) ∧
      (let what : Strike := .field 0 (formatBytes 0);
        let t := working (busy ready cmd (.formatRecord fm)) (.strike 0 .foreground what);
        let m (stuck : FrameBits) := Memory.image (Memory.strike t.array 0 (Strike.intended what) stuck) 0;
        t.ctrl.op = some (.strike 0 .foreground what) ∧ t.intake.restartPending = false ∧
          t.engine.job = some { cmd := cmd, step := .formatRecord fm } ∧ Strike.verifies what (m []) = true ∧
          Strike.verifies what (m [(0, 0x80)]) = false) := by decide +kernel

theorem witness_EraseStagesRestoreCoveredBytes :
    let s (stage : Stage) := working ready (.erase .foreground (erase3 .first stage) 0)
    (s .markerRetirement).ctrl.op = some (.erase .foreground (erase3 .first .markerRetirement) 0) ∧
      Memory.image (Memory.retireMarker (s .markerRetirement).array 3 []) 3 0 = 0 ∧
      (s .bodyErase).ctrl.op = some (.erase .foreground (erase3 .first .bodyErase) 0) ∧
      (s .markerErase).ctrl.op = some (.erase .foreground (erase3 .first .markerErase) 0) ∧
      (working ready (.erase .foreground { erase3 .first .systemErase with frame := 2 } 0)).ctrl.op =
        some (.erase .foreground { erase3 .first .systemErase with frame := 2 } 0) ∧
      Memory.wf (live rec1) = true := by decide +kernel

/-- The passed blank verify and the mark strike, with no claim waiting and with an ordinary one; the attempts fail as in
`failed_attempts`. -/
theorem witness_BackgroundEraseEnds :
    (let s := erasing3 .first .blankVerify;
      s.ctrl.op = some (.erase .background (erase3 .first .blankVerify) 400) ∧
        Image.blank (Memory.image s.array 3) = true ∧ s.ctrl.waiting = none ∧ s.pools.reclaim = 3 :: [] ∧
        3 ∉ ([] : List Frame)) ∧
      (let s := waiting (erasing3 .retry .blankVerify) (.strike 4 (markerStrike 0x80));
        s.ctrl.op = some (.erase .background (erase3 .retry .blankVerify) 400) ∧
          Image.blank (Memory.image s.array 3) = true ∧ s.ctrl.waiting = some (.strike 4 (markerStrike 0x80)) ∧
          Claim.operation (.strike 4 (markerStrike 0x80)) = some (.strike 4 .foreground (markerStrike 0x80)) ∧
          s.pools.reclaim = 3 :: []) ∧
      (∀ t ∈ [blankFails, retirementFails],
        (t ready .background 3 .first).ctrl.waiting = none ∧
          (t (waiting ready (.read 4)) .background 3 .first).ctrl.waiting = some (.read 4) ∧
          Claim.operation (.read 4) = some (.read 4)) ∧
      (let s := working (erasing3 .retry .blankVerify) (.strike 2 .background (markStrike 3));
        let m (stuck : FrameBits) := Memory.image (Memory.strike s.array 2 (Strike.intended (markStrike 3)) stuck) 2;
        s.ctrl.op = some (.strike 2 .background (markStrike 3)) ∧ s.ctrl.waiting = none ∧ s.pools.reclaim = 3 :: [] ∧
          (waiting s (.read 4)).ctrl.op = s.ctrl.op ∧ (waiting s (.read 4)).ctrl.waiting = some (.read 4) ∧
          Strike.verifies (markStrike 3) (m []) = true ∧ Strike.verifies (markStrike 3) (m [(0, 0x10)]) = false) := by
  decide +kernel

/-- R129, R124: background reclaim and the erase record through a background ERASE, its blank verify, its mark strike, its
suspension under another READ, a demand ERASE of frame 3, and none. -/
theorem test_reclaim_states :
    let suspended : State :=
      { erasing3 .first .bodyErase with ctrl := { ready.ctrl with suspended := some (erase3 .first .bodyErase) } }
    ([erasing3 .first .bodyErase, erasing3 .first .blankVerify,
          working (erasing3 .retry .blankVerify) (.strike 2 .background (markStrike 3)), suspended,
          working suspended (.read 4),
          busy (working ready (.erase .foreground (erase3 .first .bodyErase) 0)) issue2 (.takeErase writing2), ready] :
        List State).map (fun s => (Controller.named s.ctrl, Controller.reclaimState s.ctrl, State.eraseRecord s)) =
      [(.erasing, .erasing, some (3, false)), (.erasing, .verifying, some (3, false)),
        (.striking, .verifying, some (3, false)), (.eraseSuspended, .suspended, some (3, false)),
        (.reading, .suspended, some (3, false)), (.erasing, .idle, some (3, true)), (.idle, .idle, none)] := by
  decide +kernel

/-- R110: a field strike fails on a bit of its area struck where the value holds a 1, and a bit strike ignores it. -/
theorem test_verify_of_field_and_bit_strikes :
    let img : Image := fun o => if o = 5 then 0x70 else 0xFF
    Strike.verifies (.field 5 [0xF0]) img = false ∧ Strike.verifies (.bits [(5, 0x0F)]) img = true ∧
      Strike.verifies (.field 5 [0x70]) img = true ∧ Strike.verifies (.bits [(5, 0x1F)]) img = false := by decide

/-- The erase record of a background mark strike, of a demand ERASE, and with neither. -/
theorem witness_BackgroundEraseStartsYieldsResumes_record :
    (let s := working (erasing3 .retry .blankVerify) (.strike 2 .background (markStrike 3));
      s.ctrl.op = some (.strike 2 .background (markStrike 3)) ∧ s.pools.reclaim = 3 :: []) ∧
      (let s := busy (working ready (.erase .foreground (erase3 .first .bodyErase) 0)) issue2 (.takeErase writing2);
        s.ctrl.op = some (.erase .foreground (erase3 .first .bodyErase) 0) ∧
          s.engine.job = some { cmd := issue2, step := .takeErase writing2 }) ∧
      (∀ e since, ready.ctrl.op ≠ some (.erase .background e since)) ∧
      (∀ f what, ready.ctrl.op ≠ some (.strike f .background what)) ∧
      ∀ cmd w, ready.engine.job ≠ some { cmd := cmd, step := .takeErase w } :=
  ⟨⟨rfl, rfl⟩, ⟨rfl, rfl⟩, nofun, nofun, nofun⟩

theorem witness_BackgroundEraseStartsYieldsResumes :
    let s : State := { ready with pools := { ready.pools with reclaim := [3] } }
    (s.part = .ready ∧ s.engine.job = none ∧ s.intake.waiting = [] ∧ s.ctrl.op = none ∧ s.ctrl.suspended = none ∧
        s.pools.reclaim = 3 :: [] ∧ 3 ≤ (3 : Frame).val) ∧
      ({ ready.ctrl with suspended := some (erase3 .first .bodyErase) } : Controller).suspended =
        some (erase3 .first .bodyErase) ∧
      (let s := waiting (erasing3 .first .bodyErase) (.read 4);
        s.ctrl.op = some (.erase .background (erase3 .first .bodyErase) 400) ∧ 400 ≤ 400 + 0 ∧
          s.ctrl.waiting = some (.read 4) ∧ Claim.operation (.read 4) = some (.read 4)) ∧
      ((working ready (.erase .background (erase3 .first .bodyErase) 399)).ctrl.op =
        some (.erase .background (erase3 .first .bodyErase) 399) ∧ 399 + 0 < 400) ∧
      step (front .backgroundStart s) = .next (stepped (front .backgroundStart s)) ∧
      State.backgroundErasing (stepped (front .backgroundStart s)) ∧
      ¬ State.backgroundErasing (front .backgroundStart s) := by
  refine ⟨by decide +kernel, rfl, by decide +kernel, by decide +kernel, rfl,
    ⟨erase3 .first .markerRetirement, 0, by decide +kernel⟩, ?_⟩
  rintro ⟨e, since, h⟩
  exact absurd h nofun

theorem witness_TallyCountsAndStrikes :
    (1024 ≤ 1024) ∧ tallyB = tallyB ∧ consumed (fun _ => 0xFF) tallyB 1024 = 0 ∧ 0 ≤ 1023 ∧ 1023 < 1024 ∧
      0 < consumed (fun _ => 0) tallyA 1 := by decide +kernel

theorem witness_DuplicateResolutionPicksOneWinner :
    let c (f : Frame) (g : Gen) (sound : Option (ClassNo × Nat)) : Candidate :=
      { frame := f, marker := 0x3F, key := 1, gen := g, sound := sound }
    (c 3 0 none).frame ≠ (c 4 0 none).frame ∧ (c 3 0 (some (0, 1))).sound ≠ none ∧ (c 4 0 none).sound = none ∧
      (1 ≤ ((32767 : Gen) - 0).toNat ∧ ((32767 : Gen) - 0).toNat ≤ 32767) ∧ ((32768 : Gen) - 0).toNat = 32768 ∧
      ((c 3 0 (some (0, 0))).sound = none ↔ (c 4 0 (some (0, 1))).sound = none) ∧ (3 : Frame) < 4 := by decide

theorem witness_GrantRecordReadsBackAsWritten :
    rec1.key ≠ 0 ∧ rec1.key ≠ 0xFFFFFFFF ∧
      1 ≤ rec1.allowance ∧ rec1.allowance ≤ 1024 ∧ rec1.label.length ≤ 24 ∧ rec1.topups ≤ 255 ∧
      phaseOf (Memory.image (live rec1) 3 0) = .live ∧
      (∀ i < 52, Memory.image (live rec1) 3 (recordStart + i) = (recordBytes rec1).getD i 0) ∧
      (Image.classByte (Memory.image (live rec1) 3)).toNat ≤ 15 ∧
      Image.labelLength (Memory.image (live { rec1 with label := List.replicate 24 0 }) 3) ≤ 24 := by decide +kernel

theorem witness_SystemRecordsReadBackAsWritten :
    (1 ≤ (policy 1024).maxUnits ∧ (policy 1024).maxUnits ≤ 1024 ∧
        ∀ i < 32,
          Memory.image (Memory.strike [] 1 (Strike.intended (policyStrike 15 (policy 1024))) []) 1 (480 + i) =
            (policyBytes 15 (policy 1024)).getD i 0) ∧
      (∀ i < 512, (fun o => (formatBytes 7).getD o 0 : Image) i = (formatBytes 7).getD i 0) ∧
      ∀ units ∈ [1, 1024],
        let field (i : Nat) : Byte := (policyBytes 15 (policy units)).getD i 0
        (¬ ∀ i < 32, field i = 0xFF) ∧ (∀ i < 6, field i = 0 ∨ field i = 1) ∧
          (field 6).toNat * 256 + (field 7).toNat = units ∧
          field 8 ++ field 9 ++ field 10 ++ field 11 = checkCode (15 :: (List.range 8).map field) := by
  refine ⟨by decide +kernel, fun _ _ => rfl, by decide +kernel⟩

/-- R92: a region whose limit is 0 or 1025, or with the last byte of its check code struck, is FAULTED; a blank one is
UNCONFIGURED. -/
theorem test_policy_region_faulted :
    let region (bytes : List Byte) : Image := fun o => bytes.getD (o - 480) 0xFF
    ([policyBytes 15 (policy 0), policyBytes 15 (policy 1025), (policyBytes 15 (policy 1)).set 11 0, []] :
          List (List Byte)).map (fun bytes => Image.classStatus (region bytes) 15) =
      [.faulted, .faulted, .faulted, .unconfigured] := by decide +kernel

theorem witness_SentBytesStandInTheirPlaces :
    let s : State :=
      { ready with
          policies := setClass (setClass ready.policies 0 (.set (policy 1))) 15 .faulted
          engine := { ready.engine with epoch := some 0xFFFFFFFF } }
    s.policies[(0 : ClassNo)] = .set (policy 1) ∧ s.policies[(15 : ClassNo)] = .faulted ∧
      s.policies[(1 : ClassNo)] = .unconfigured ∧ s.engine.epoch = some 0xFFFFFFFF ∧ s.mount.label = some 0 := by
  decide +kernel

/-- Whatever is said of the item of an absent option holds. -/
theorem none_all {α : Type} {p : α → Prop} : ∀ x ∈ (none : Option α), p x := nofun

/-- A READY part with a grant in frame 3, a LIST to be taken, and every other grant frame in the free pool is safe. -/
theorem full_safe (m : Memory) (wf : Memory.wf m = true) (free : List Frame) (nodup : free.Nodup)
    (all : ∀ f : Frame, f ∈ free ↔ 4 ≤ f.val) :
    State.Safe (front .list (full m free)) := by
  have places : State.places (front .list (full m free)) = free ++ [3] := by
    simp [State.places, front, full, ready, State.reset, entry1, State.scannedFrames]
  have slots : State.slotsInUse (front .list (full m free)) = 0 := rfl
  have tags : State.tagsInUse (front .list (full m free)) = [] := rfl
  refine ⟨wf, by rw [State.slotsOk, slots, tags]; decide, ?_, ?_, ?_⟩
  · exact ⟨nofun, nofun, nofun, nofun, fun _ _ => ⟨rfl, rfl⟩, none_all, none_all⟩
  · exact ⟨List.pairwise_singleton _ _, none_all, none_all⟩
  · refine ⟨?_, ?_, fun _ => ?_, none_all, nofun, none_all, none_all, none_all⟩ <;>
      simp only [State.allPlaced, places, all, List.nodup_append, List.mem_append, List.mem_singleton]
    · refine ⟨nodup, List.nodup_singleton _, ?_⟩
      rintro a ha b rfl rfl
      exact absurd ha (by decide)
    · rintro f (hf | rfl)
      · omega
      · decide
    · intro f hf
      by_cases h : 4 ≤ f.val
      · exact .inl h
      · exact .inr (Fin.ext (by show f.val = 3; omega))

theorem witness_InvariantsKept :
    let free := (List.finRange 2048).filter fun f => decide (4 ≤ f.val)
    State.Safe (front .list (full (live rec1) free)) ∧
      step (front .list (full (live rec1) free)) = .next (stepped (front .list (full (live rec1) free))) :=
  ⟨full_safe _ (by decide +kernel) _ ((List.nodup_finRange 2048).filter _) (by simp),
    by simp only [stepped, step, front, exec, execList]⟩

theorem witness_PartStateFollowsItsTable :
    let s := front .readComplete State.reset
    State.mountOk s ∧ step s = .next (stepped s) ∧ (stepped s).part ≠ s.part := ⟨fun _ => rfl, rfl, by decide +kernel⟩

theorem witness_EpochNeverDecreases :
    let s := front (.setEpoch 0) (linked ready)
    step s = .next (stepped s) ∧ (stepped s).engine.epoch ≠ s.engine.epoch := ⟨rfl, by decide⟩

theorem witness_SetPolicyStaysUntilFormat :
    let s := front .info (linked open1)
    step s = .next (stepped s) ∧ s.policies[(15 : ClassNo)] = .set (policy 1024) ∧ s.mount.work = none ∧
      s.engine.job = none ∧ ∀ cut, s.pending.head? ≠ some (.format cut) := ⟨rfl, by decide +kernel, rfl, rfl, nofun⟩

theorem witness_RecordOnlyAdvances :
    let s := front (.strikeComplete []) (working open1 (.strike 3 .foreground (markerStrike 0x30)))
    State.arrayOk s ∧ step s = .next (stepped s) ∧ ¬ State.erasing s 3 ∧ 1024 ≤ 1024 := by
  refine ⟨by decide +kernel, rfl, ?_, Nat.le_refl _⟩
  rintro ⟨claimant, e, since, h, _⟩
  exact absurd h nofun

/-- A STRIKE on frame 2 that fails, an ERASE of frame 0 that fails at its retry, and INFO. -/
theorem witness_FaultEventSetAndClearedByItsCauses :
    (let what := markStrike 3;
      let s := front (.strikeComplete [(0, 0x10)]) (working ready (.strike 2 .background what));
      step s = .next (stepped s) ∧ s.ctrl.op = some (.strike 2 .background what) ∧ (2 : Frame).val < 3 ∧
        Strike.verifies what (Memory.image (Memory.strike s.array 2 (Strike.intended what) [(0, 0x10)]) 2) = false ∧
        s.intake.restartPending = false ∧ s.link.faultEvent = false ∧ (stepped s).link.faultEvent = true) ∧
      (let s := front .blankVerify (blankFails ready .foreground 0 .retry);
        let e : Erase := { frame := 0, attempt := .retry, stage := .blankVerify, progress := 0 };
        step s = .next (stepped s) ∧ s.pending.head? = some .blankVerify ∧
          State.attemptFails s .foreground e .blankVerify s ∧ e.frame.val < 3 ∧ s.intake.restartPending = false ∧
          s.link.faultEvent = false ∧ (stepped s).link.faultEvent = true) ∧
      (let s := front .info (linked (State.setFaultEvent ready));
        step s = .next (stepped s) ∧ s.link.faultEvent = true ∧ (stepped s).link.faultEvent = false) :=
  ⟨⟨rfl, rfl, by decide, by decide +kernel, rfl, rfl, by decide +kernel⟩,
    ⟨rfl, rfl, State.attemptFails_blankVerify (since := 0) rfl rfl (by decide +kernel), by decide, rfl, rfl,
      by decide +kernel⟩,
    rfl, rfl, rfl⟩

end Sys2Proof.Tests
end

section
/-! What a step does to the frame array: it leaves it as it is, or as a cut of the operation in progress would leave it. -/

namespace Sys2Proof.Machine

/-! ### The link port leaves the array alone -/

@[simp] theorem State.chipSelectFall_array (s : State) : (State.chipSelectFall s).array = s.array := by
  unfold State.chipSelectFall
  repeat' split
  all_goals simp

@[simp] theorem State.transactionEnd_array (s : State) : (State.transactionEnd s).array = s.array := rfl

@[simp] theorem State.submission_array (s : State) (code tag : Byte) (args : List Byte) (crc : Word) :
    (State.submission s code tag args crc).array = s.array := by
  unfold State.submission
  split
  · split
    · dsimp only
      split <;> simp
    · rfl
  · rfl

@[simp] theorem State.submissionTruncated_array (s : State) (bytes : List Byte) :
    (State.submissionTruncated s bytes).array = s.array := by
  unfold State.submissionTruncated
  repeat' split
  all_goals rfl

@[simp] theorem State.collect_array (s : State) : (State.collect s).array = s.array := by
  unfold State.collect
  repeat' split
  all_goals simp

@[simp] theorem State.recordShiftedOut_array (s : State) : (State.recordShiftedOut s).array = s.array := by
  unfold State.recordShiftedOut
  split <;> simp

@[simp] theorem State.changeHold_array (s : State) (cls : Byte) (hold : Bool) :
    (State.changeHold s cls hold).1.array = s.array := by
  unfold State.changeHold
  repeat' split
  all_goals rfl

@[simp] theorem State.cancel_array (s : State) (tag : Byte) : (State.cancel s tag).1.array = s.array := by
  unfold State.cancel
  dsimp only
  split <;> rfl

/-- An immediate command does to the array what its act does, or is not taken. -/
theorem State.immediate_array (s : State) (code : Byte) (act : Byte → State × List Byte) :
    (State.immediate s code act).array = s.array ∨
      ∃ captured, (State.immediate s code act).array = (act captured).1.array := by
  unfold State.immediate
  split
  · exact .inr ⟨_, rfl⟩
  · exact .inl rfl

theorem State.immediate_array_of_act {s : State} {code : Byte} {act : Byte → State × List Byte}
    (h : ∀ captured, (act captured).1.array = s.array) : (State.immediate s code act).array = s.array := by
  obtain same | ⟨captured, same⟩ := State.immediate_array s code act
  · exact same
  · exact same.trans (h captured)

/-! ### The dispatches but FORMAT's leave the array alone -/

/-- A dispatch does to the array what its first step does, or is not made. -/
theorem State.dispatch_array (s : State) (code : Byte) (run : State → Command → State) :
    (State.dispatch s code run).array = s.array ∨
      ∃ cmd, (State.dispatch s code run).array = (run (State.headLeft s s.intake.waiting.tail) cmd).array := by
  unfold State.dispatch
  split
  · exact .inl rfl
  · exact .inr ⟨_, rfl⟩

theorem State.dispatch_array_of_run {s : State} {code : Byte} {run : State → Command → State}
    (h : ∀ t cmd, (run t cmd).array = t.array) : (State.dispatch s code run).array = s.array := by
  obtain same | ⟨cmd, same⟩ := State.dispatch_array s code run
  · exact same
  · exact same.trans (h _ cmd)

@[simp] theorem State.readEntry_array (s : State) (cmd : Command) (e : Entry) (step : EngineStep) :
    (State.readEntry s cmd e step).array = s.array := rfl

@[simp] theorem State.runIssue_array (s : State) (cmd : Command) : (State.runIssue s cmd).array = s.array := by
  unfold State.runIssue
  dsimp only
  repeat' split
  all_goals simp

@[simp] theorem State.runLookup_array (s : State) (cmd : Command) : (State.runLookup s cmd).array = s.array := by
  unfold State.runLookup
  repeat' split
  all_goals simp

@[simp] theorem State.runDraw_array (s : State) (cmd : Command) : (State.runDraw s cmd).array = s.array := by
  unfold State.runDraw
  repeat' split
  all_goals simp

@[simp] theorem State.runTopup_array (s : State) (cmd : Command) : (State.runTopup s cmd).array = s.array := by
  unfold State.runTopup
  repeat' split
  all_goals simp

@[simp] theorem State.runMove_array (s : State) (cmd : Command) : (State.runMove s cmd).array = s.array := by
  unfold State.runMove
  repeat' split
  all_goals simp

@[simp] theorem State.runRevoke_array (s : State) (cmd : Command) : (State.runRevoke s cmd).array = s.array := by
  unfold State.runRevoke
  split <;> simp

@[simp] theorem State.runList_array (s : State) (cmd : Command) : (State.runList s cmd).array = s.array := by
  simp [State.runList]

@[simp] theorem State.runConfigureClass_array (s : State) (cmd : Command) :
    (State.runConfigureClass s cmd).array = s.array := by
  unfold State.runConfigureClass
  dsimp only
  repeat' split
  all_goals simp

@[simp] theorem State.runPurgeOrphans_array (s : State) (cmd : Command) :
    (State.runPurgeOrphans s cmd).array = s.array := by
  simp [State.runPurgeOrphans]

/-! ### Array events that only move the controller on -/

@[simp] theorem State.readComplete_array (s : State) : (State.readComplete s).array = s.array := by
  unfold State.readComplete
  split <;> simp

@[simp] theorem State.blankVerify_array (s : State) : (State.blankVerify s).array = s.array := by
  unfold State.blankVerify
  repeat' split
  all_goals simp

@[simp] theorem State.quantum_array (s : State) : (State.quantum s).array = s.array := by
  unfold State.quantum
  repeat' split
  all_goals simp

@[simp] theorem State.backgroundStart_array (s : State) : (State.backgroundStart s).array = s.array := by
  unfold State.backgroundStart
  repeat' split
  all_goals simp

@[simp] theorem State.backgroundResume_array (s : State) : (State.backgroundResume s).array = s.array := by
  unfold State.backgroundResume
  repeat' split
  all_goals rfl

@[simp] theorem State.resetnRelease_array (s : State) : (State.resetnRelease s).array = s.array := by
  unfold State.resetnRelease
  split <;> simp

@[simp] theorem State.serveIfFree_array (s : State) : (State.serveIfFree s).array = s.array := by
  unfold State.serveIfFree
  split <;> simp

/-! ### What array work leaves -/

/-- The array is as before, or as a cut of the operation in progress leaves it (R106, R120): a completion, a stage and a
suspension write what a cut there would. -/
def State.WorkLeaves (s : State) (m : Memory) : Prop := m = s.array ∨ ∃ undone, m = State.cutArray s undone

theorem State.WorkLeaves.of_eq {s : State} {m : Memory} (h : m = s.array) : State.WorkLeaves s m := .inl h

theorem State.WorkLeaves.of_cut {s : State} {m : Memory} (undone : FrameBits) (h : m = State.cutArray s undone) :
    State.WorkLeaves s m := .inr ⟨undone, h⟩

theorem State.cutArray_of_op {s : State} {op : Op} (h : s.ctrl.op = some op) (undone : FrameBits) :
    State.cutArray s undone = Op.cut s.array undone op := by
  simp [State.cutArray, h]

theorem State.powerOn_workLeaves (s : State) (undone : FrameBits) :
    State.WorkLeaves s (State.powerOn s undone).array := .of_cut undone rfl

theorem State.resetnAssertion_workLeaves (s : State) (undone : FrameBits) :
    State.WorkLeaves s (State.resetnAssertion s undone).array := by
  unfold State.resetnAssertion
  split
  · exact .of_cut undone rfl
  · exact .of_eq rfl

theorem State.powerLoss_workLeaves (s : State) (undone : FrameBits) :
    State.WorkLeaves s (State.powerLoss s undone).array := by
  unfold State.powerLoss
  split
  · exact .of_cut undone rfl
  · exact .of_eq rfl

theorem State.abandon_workLeaves (s : State) (undone : FrameBits) :
    State.WorkLeaves s (State.abandon s undone).array := by
  unfold State.abandon
  split
  · exact .of_eq rfl
  · next op ho =>
    split
    · exact .of_cut undone (State.cutArray_of_op ho undone).symm
    · exact .of_eq rfl

theorem State.restart_workLeaves (s : State) (undone : FrameBits) :
    State.WorkLeaves s (State.restart s undone).1.array := by
  unfold State.restart
  split
  · exact .of_eq rfl
  · dsimp only
    unfold State.takeRestart
    split <;> simp only [State.clearForRestart_array, State.serveIfFree_array] <;>
      exact State.abandon_workLeaves _ undone

theorem State.runFormat_workLeaves (s : State) (undone : FrameBits) (cmd : Command) :
    State.WorkLeaves s (State.runFormat undone s cmd).array := by
  unfold State.runFormat
  dsimp only
  split <;> exact State.abandon_workLeaves s undone

theorem State.strikeComplete_workLeaves (s : State) (stuck : FrameBits) :
    State.WorkLeaves s (State.strikeComplete s stuck).array := by
  unfold State.strikeComplete
  split
  · next f claimant what ho =>
    refine .of_cut stuck ?_
    rw [State.cutArray_of_op ho]
    cases claimant <;> simp [Op.cut]
  · exact .of_eq rfl

theorem State.markerRetirement_workLeaves (s : State) (elapsed : Nat) (stuck : FrameBits) :
    State.WorkLeaves s (State.markerRetirement s elapsed stuck).array := by
  unfold State.markerRetirement
  split
  · next claimant e since ho =>
    split
    · next hs =>
      refine .of_cut stuck ?_
      rw [State.cutArray_of_op ho, Op.cut, hs]
      dsimp only
      split
      · rfl
      · exact State.attemptFailed_array _ _ _
    · exact .of_eq rfl
  · exact .of_eq rfl

theorem State.stageComplete_workLeaves (s : State) (stage next : Stage) (elapsed : Nat) (stuck : FrameBits) :
    State.WorkLeaves s (State.stageComplete s stage next elapsed stuck).array := by
  unfold State.stageComplete
  split
  · next claimant e since ho =>
    split
    · next hs =>
      subst hs
      exact .of_cut stuck (State.cutArray_of_op ho stuck).symm
    · exact .of_eq rfl
  · exact .of_eq rfl

theorem State.suspension_workLeaves (s : State) (elapsed : Nat) (undone : FrameBits) :
    State.WorkLeaves s (State.suspension s elapsed undone).array := by
  unfold State.suspension
  split
  · next e since k ho hw =>
    split
    · refine .of_cut undone ?_
      rw [State.serveWaiting_array, State.cutArray_of_op ho]
      rfl
    · exact .of_eq rfl
  · exact .of_eq rfl

/-- Whatever command or event is taken, the array is left as array work leaves it. -/
theorem exec_workLeaves {c : Instr} {s t : State} (h : exec c s = .next t) : State.WorkLeaves s t.array := by
  cases c with
  | powerOn cut => cases h; exact State.powerOn_workLeaves s cut
  | resetnAssertion cut => cases h; exact State.resetnAssertion_workLeaves s cut
  | resetnRelease => cases h; exact .of_eq (by simp)
  | chipSelectFall => cases h; exact .of_eq (by simp)
  | submission code tag args crc => cases h; exact .of_eq (by simp)
  | submissionTruncated bytes => cases h; exact .of_eq (by simp)
  | status => cases h; exact .of_eq (State.immediate_array_of_act fun _ => rfl)
  | collect => cases h; exact .of_eq (by simp)
  | recordShiftedOut => cases h; exact .of_eq (by simp)
  | info => cases h; exact .of_eq (State.immediate_array_of_act fun _ => rfl)
  | setEpoch value => cases h; exact .of_eq (State.immediate_array_of_act fun _ => rfl)
  | holdClass cls => cases h; exact .of_eq (State.immediate_array_of_act fun _ => State.changeHold_array s cls true)
  | releaseClass cls => cases h; exact .of_eq (State.immediate_array_of_act fun _ => State.changeHold_array s cls false)
  | cancel tag => cases h; exact .of_eq (State.immediate_array_of_act fun _ => State.cancel_array s tag)
  | restart cut =>
    cases h
    obtain same | ⟨_, same⟩ := State.immediate_array s 0x08 fun _ => State.restart s cut
    · exact .of_eq same
    · rw [same]
      exact State.restart_workLeaves s cut
  | unknownImmediateCommand code =>
    cases h
    refine .of_eq ?_
    split
    · rfl
    · exact State.immediate_array_of_act fun _ => rfl
  | issue => cases h; exact .of_eq (State.dispatch_array_of_run State.runIssue_array)
  | lookup => cases h; exact .of_eq (State.dispatch_array_of_run State.runLookup_array)
  | draw => cases h; exact .of_eq (State.dispatch_array_of_run State.runDraw_array)
  | topup => cases h; exact .of_eq (State.dispatch_array_of_run State.runTopup_array)
  | move => cases h; exact .of_eq (State.dispatch_array_of_run State.runMove_array)
  | revoke => cases h; exact .of_eq (State.dispatch_array_of_run State.runRevoke_array)
  | list => cases h; exact .of_eq (State.dispatch_array_of_run State.runList_array)
  | configureClass => cases h; exact .of_eq (State.dispatch_array_of_run State.runConfigureClass_array)
  | purgeOrphans => cases h; exact .of_eq (State.dispatch_array_of_run State.runPurgeOrphans_array)
  | format cut =>
    cases h
    obtain same | ⟨cmd, same⟩ := State.dispatch_array s 0x4A (State.runFormat cut)
    · exact .of_eq same
    · rw [same]
      exact State.runFormat_workLeaves (State.headLeft s s.intake.waiting.tail) cut cmd
  | readComplete => cases h; exact .of_eq (by simp)
  | strikeComplete stuck => cases h; exact State.strikeComplete_workLeaves s stuck
  | markerRetirement elapsed stuck => cases h; exact State.markerRetirement_workLeaves s elapsed stuck
  | bodyErase elapsed stuck => cases h; exact State.stageComplete_workLeaves s .bodyErase .markerErase elapsed stuck
  | markerErase elapsed stuck => cases h; exact State.stageComplete_workLeaves s .markerErase .blankVerify elapsed stuck
  | systemFrameErase elapsed stuck =>
    cases h
    exact State.stageComplete_workLeaves s .systemErase .blankVerify elapsed stuck
  | blankVerify => cases h; exact .of_eq (by simp)
  | quantum => cases h; exact .of_eq (by simp)
  | suspension elapsed undone => cases h; exact State.suspension_workLeaves s elapsed undone
  | backgroundStart => cases h; exact .of_eq (by simp)
  | backgroundResume => cases h; exact .of_eq (by simp)
  | transactionEnd => cases h; exact .of_eq (by simp)
  | powerLoss cut => cases h; exact State.powerLoss_workLeaves s cut

/-- A step leaves the array as array work leaves it; the walk of a mount leaves it alone. -/
theorem step_workLeaves {s t : State} (h : step s = .next t) : State.WorkLeaves s t.array := by
  unfold step at h
  split at h
  · cases h
    exact .of_eq (State.tick_array s)
  · next c rest _ => exact exec_workLeaves (s := { s with pending := rest }) h

end Sys2Proof.Machine
end

section
/-! The tally (R16, R17, R52): what a copy's consumed count says of its marks, and which marks a strike of a copy intends. -/

namespace Sys2Proof.Machine

/-! ### Marks and the consumed count -/

theorem markStruck_iff (img : Image) (base n : Nat) :
    markStruck img base n = true ↔ (img (base + n / 8)).getLsbD (7 - n % 8) = false := by
  simp [markStruck]

theorem consumed_succ_of_struck {img : Image} {base n : Nat} (h : markStruck img base n = true) :
    consumed img base (n + 1) = n + 1 := by
  simp [consumed, h]

theorem consumed_succ_of_standing {img : Image} {base n : Nat} (h : markStruck img base n = false) :
    consumed img base (n + 1) = consumed img base n := by
  simp [consumed, h]

theorem consumed_le (img : Image) (base allowance : Nat) : consumed img base allowance ≤ allowance := by
  induction allowance with
  | zero => exact Nat.le_refl 0
  | succ n ih =>
    cases h : markStruck img base n with
    | true => rw [consumed_succ_of_struck h]
    | false =>
      rw [consumed_succ_of_standing h]
      omega

/-- Every mark from the count up to the allowance stands. -/
theorem markStruck_of_consumed_le {img : Image} {base allowance n : Nat} (hn : consumed img base allowance ≤ n)
    (hlt : n < allowance) : markStruck img base n = false := by
  induction allowance with
  | zero => omega
  | succ m ih =>
    cases h : markStruck img base m with
    | true =>
      rw [consumed_succ_of_struck h] at hn
      omega
    | false =>
      rw [consumed_succ_of_standing h] at hn
      obtain rfl | hlt := Nat.lt_succ_iff_lt_or_eq.mp hlt |>.symm
      · exact h
      · exact ih hn hlt

/-- The mark right below a count that is not 0 is struck. -/
theorem markStruck_pred_consumed {img : Image} {base allowance : Nat} (h : 0 < consumed img base allowance) :
    markStruck img base (consumed img base allowance - 1) = true := by
  induction allowance with
  | zero => exact absurd h (Nat.lt_irrefl 0)
  | succ m ih =>
    cases hm : markStruck img base m with
    | true => rwa [consumed_succ_of_struck hm, Nat.add_sub_cancel]
    | false =>
      rw [consumed_succ_of_standing hm] at h ⊢
      exact ih h

/-- The count grows with the struck marks below the allowance. -/
theorem consumed_le_consumed {img later : Image} {base allowance : Nat}
    (h : ∀ n < allowance, markStruck img base n = true → markStruck later base n = true) :
    consumed img base allowance ≤ consumed later base allowance := by
  by_contra hlt
  have struck := markStruck_pred_consumed (img := img) (base := base) (allowance := allowance) (by omega)
  have le := consumed_le img base allowance
  have standing := markStruck_of_consumed_le (img := later) (base := base) (allowance := allowance)
    (n := consumed img base allowance - 1) (by omega) (by omega)
  rw [h _ (by omega) struck] at standing
  exact absurd standing (by decide)

/-! ### The marks a strike of a copy intends -/

/-- The bits that a fold over places collects: those there before, and that of each place taken. -/
theorem getLsbD_foldl_placeBits (take : Nat → Bool) (places : List Nat) (b : Byte) (k : Nat) :
    (places.foldl (fun b i => if take i then b ||| ((0x80 : Byte) >>> i) else b) b).getLsbD k = true ↔
      b.getLsbD k = true ∨ ∃ i ∈ places, take i = true ∧ ((0x80 : Byte) >>> i).getLsbD k = true := by
  induction places generalizing b with
  | nil => simp
  | cons i places ih =>
    rw [List.foldl_cons, ih]
    cases h : take i <;> simp [h, or_assoc]

/-- Mark `i` of a byte of a copy is its bit 7 − i (R16). -/
theorem getLsbD_placeBit : ∀ i < 8, ∀ r < 8, (((0x80 : Byte) >>> i).getLsbD (7 - r) = true ↔ i = r) := by decide

theorem getLsbD_marksInByte (lo hi j : Nat) {r : Nat} (hr : r < 8) :
    (marksInByte lo hi j).getLsbD (7 - r) = true ↔ lo ≤ 8 * j + r ∧ 8 * j + r < hi := by
  have collected := getLsbD_foldl_placeBits (fun i => lo ≤ 8 * j + i && 8 * j + i < hi) (List.range 8) 0 (7 - r)
  rw [marksInByte, collected]
  constructor
  · rintro (h | ⟨i, hi8, htaken, hbit⟩)
    · simp at h
    · rw [← (getLsbD_placeBit i (List.mem_range.mp hi8) r hr).mp hbit]
      simpa using htaken
  · intro h
    exact .inr ⟨r, List.mem_range.mpr hr, by simpa using h, (getLsbD_placeBit r hr r hr).mpr rfl⟩

theorem mem_intended_tallyStrike (base lo hi : Nat) (p : Nat × Byte) :
    p ∈ Strike.intended (tallyStrike base lo hi) ↔
      ∃ j, lo / 8 ≤ j ∧ j < (hi + 7) / 8 ∧ p = (base + j, marksInByte lo hi j) := by
  simp only [Strike.intended, tallyStrike, List.mem_map, List.mem_range]
  constructor
  · rintro ⟨i, hi8, rfl⟩
    exact ⟨lo / 8 + i, by omega, by omega, rfl⟩
  · rintro ⟨j, hlo, hhi, rfl⟩
    exact ⟨j - lo / 8, by omega, by rw [Nat.add_sub_cancel' hlo]⟩

/-- The strike of marks `lo` to `hi - 1` intends exactly them (R52). -/
theorem intends_mark_tallyStrike_iff (base lo hi n : Nat) :
    (∃ p ∈ Strike.intended (tallyStrike base lo hi), p.1 = base + n / 8 ∧ p.2.getLsbD (7 - n % 8) = true) ↔
      lo ≤ n ∧ n < hi := by
  have place : 8 * (n / 8) + n % 8 = n := by omega
  have bit := getLsbD_marksInByte lo hi (n / 8) (r := n % 8) (by omega)
  rw [place] at bit
  constructor
  · rintro ⟨p, hp, hbyte, hbit⟩
    obtain ⟨j, _, _, rfl⟩ := (mem_intended_tallyStrike base lo hi p).mp hp
    obtain rfl : j = n / 8 := Nat.add_left_cancel hbyte
    exact bit.mp hbit
  · intro h
    exact ⟨_, (mem_intended_tallyStrike base lo hi _).mpr ⟨n / 8, by omega, by omega, rfl⟩, rfl, bit.mpr h⟩

/-- Settles O45. -/
theorem tallyCountsAndStrikes : Obligations.TallyCountsAndStrikes := by
  refine ⟨⟨rfl, rfl, markStruck_iff⟩, fun img base allowance => ?_, fun img allowance target base n _ htarget _ => ?_⟩
  · exact ⟨consumed_le img base allowance, fun n => markStruck_of_consumed_le, markStruck_pred_consumed⟩
  · exact ⟨intends_mark_tallyStrike_iff base _ target n,
      fun hcount hn => markStruck_of_consumed_le hcount (Nat.lt_of_lt_of_le hn htarget)⟩

end Sys2Proof.Machine
end

section
/-! A record only advances (R20): no array work but the ERASE of a frame turns a struck bit of it to standing, and the phase and
the consumed counts grow with the struck bits. -/

namespace Sys2Proof.Machine

/-! ### Struck bits stay struck -/

/-- Every bit struck in the byte stays struck in the later one. -/
def Byte.StaysStruck (b later : Byte) : Prop := ∀ i, b.getLsbD i = false → later.getLsbD i = false

/-- Every bit struck in the 512 bytes of the frame image stays struck in the later one. -/
def Image.StaysStruck (img later : Image) : Prop := ∀ o < 512, Byte.StaysStruck (img o) (later o)

theorem Image.StaysStruck.refl (img : Image) : Image.StaysStruck img img := fun _ _ _ h => h

theorem Image.StaysStruck.trans {img mid later : Image} (h : Image.StaysStruck img mid)
    (h' : Image.StaysStruck mid later) : Image.StaysStruck img later :=
  fun o ho i struck => h' o ho i (h o ho i struck)

/-! ### Array work and struck bits -/

/-- The strike of a byte of any frame turns no struck bit to standing. -/
theorem Memory.strikeByte_staysStruck {m : Memory} (wf : Memory.wf m = true) (f g : Frame) (o : Nat) (b : Byte) :
    Image.StaysStruck (Memory.image m f) (Memory.image (Memory.strikeByte m g o b) f) := by
  intro p _ i struck
  unfold Memory.image at struck ⊢
  by_cases here : o < 512 ∧ byteAddress f p = byteAddress g o
  · obtain ⟨ho, ha⟩ := here
    rw [ha] at struck ⊢
    rw [Memory.read_strikeByte_same wf g ho, BitVec.getLsbD_and, struck, Bool.false_and]
  · rw [← struck]
    by_cases ho : o < 512
    · rw [Memory.read_strikeByte_other m g o b fun ha => here ⟨ho, ha⟩]
    · rw [Memory.strikeByte, if_neg ho]

/-- A STRIKE on any frame, whatever stays standing, turns no struck bit to standing. -/
theorem Memory.strike_staysStruck {m : Memory} (wf : Memory.wf m = true) (f g : Frame) (intended stuck : FrameBits) :
    Image.StaysStruck (Memory.image m f) (Memory.image (Memory.strike m g intended stuck) f) := by
  unfold Memory.strike
  induction intended generalizing m with
  | nil => exact .refl _
  | cons p rest ih => exact (Memory.strikeByte_staysStruck wf f g p.1 _).trans (ih (Memory.wf_strikeByte g p.1 _ wf))

/-- An erase leaves every byte outside its range as it was. -/
theorem Memory.read_eraseRange_outside (m : Memory) {lo hi a : Nat} (stuck : Nat → Byte) (h : ¬ (lo ≤ a ∧ a < hi)) :
    Memory.read (Memory.eraseRange lo hi stuck m) a = Memory.read m a := by
  induction m with
  | nil => rfl
  | cons p m ih =>
    obtain ⟨k, c⟩ := p
    unfold Memory.eraseRange
    split
    · next hk =>
      have hak : a ≠ k := by
        rintro rfl
        exact h (by simpa using hk)
      split <;> simp [Memory.read, hak, ih]
    · simp [Memory.read, ih]

/-- The erase of bytes of another frame leaves the frame's image as it was. -/
theorem Memory.image_eraseBytes_other (m : Memory) {f g : Frame} (hfg : g ≠ f) {lo hi o : Nat} (hhi : hi ≤ 512)
    (ho : o < 512) (stuck : FrameBits) :
    Memory.image (Memory.eraseBytes m g lo hi stuck) f o = Memory.image m f o := by
  refine Memory.read_eraseRange_outside m _ ?_
  have : g.val ≠ f.val := fun h => hfg (Fin.ext h)
  unfold byteAddress
  omega

theorem Memory.eraseBytes_staysStruck (m : Memory) {f g : Frame} (hfg : g ≠ f) {lo hi : Nat} (hhi : hi ≤ 512)
    (stuck : FrameBits) :
    Image.StaysStruck (Memory.image m f) (Memory.image (Memory.eraseBytes m g lo hi stuck) f) := by
  intro o ho i struck
  rwa [Memory.image_eraseBytes_other m hfg hhi ho]

/-- A stage of an ERASE of another frame turns no struck bit of the frame to standing. -/
theorem Memory.eraseStage_staysStruck {m : Memory} (wf : Memory.wf m = true) {f g : Frame} (hfg : g ≠ f) (stage : Stage)
    (undone : FrameBits) :
    Image.StaysStruck (Memory.image m f) (Memory.image (Memory.eraseStage m g stage undone) f) := by
  cases stage with
  | markerRetirement => exact Memory.strike_staysStruck wf f g _ undone
  | bodyErase => exact Memory.eraseBytes_staysStruck m hfg (Nat.le_refl _) undone
  | markerErase => exact Memory.eraseBytes_staysStruck m hfg (by omega) undone
  | systemErase => exact Memory.eraseBytes_staysStruck m hfg (Nat.le_refl _) undone
  | blankVerify => exact .refl _

/-- What array work leaves of a frame that no ERASE is on holds every struck bit struck. -/
theorem State.WorkLeaves.staysStruck {s : State} {m : Memory} {f : Frame} (h : State.WorkLeaves s m)
    (wf : State.arrayOk s) (notErasing : ¬ State.erasing s f) :
    Image.StaysStruck (Memory.image s.array f) (Memory.image m f) := by
  obtain rfl | ⟨undone, rfl⟩ := h
  · exact .refl _
  · cases ho : s.ctrl.op with
    | none =>
      rw [State.cutArray, ho]
      exact .refl _
    | some op =>
      rw [State.cutArray_of_op ho]
      cases op with
      | read g => exact .refl _
      | strike g claimant what => exact Memory.strike_staysStruck wf f g _ undone
      | erase claimant e since =>
        exact Memory.eraseStage_staysStruck wf (fun hf => notErasing ⟨claimant, e, since, ho, hf⟩) e.stage undone

/-! ### The phase and the consumed counts grow with the struck bits -/

/-- The rank of the decoded phase by the bits of the marker, most advanced first (R4). -/
theorem rank_phaseOf (b : Byte) :
    Phase.rank (phaseOf b) =
      if b.getLsbD 4 = false then 4
      else if b.getLsbD 5 = false then 3
      else if b.getLsbD 6 = false then 2
      else if b.getLsbD 7 = false then 1
      else 0 := by
  unfold phaseOf
  split_ifs <;> simp_all [Phase.rank]

/-- The bit that decides the stage of the earlier marker is struck in the later one too, whose stage is no less advanced. -/
theorem Byte.StaysStruck.rank_phaseOf_le {b later : Byte} (h : Byte.StaysStruck b later) :
    Phase.rank (phaseOf b) ≤ Phase.rank (phaseOf later) := by
  have h4 := h 4
  have h5 := h 5
  have h6 := h 6
  have h7 := h 7
  rw [rank_phaseOf, rank_phaseOf]
  split_ifs <;> simp_all

theorem Image.StaysStruck.consumed_le_consumed {img later : Image} (h : Image.StaysStruck img later) {base allowance : Nat}
    (hbase : base + 128 ≤ 512) (hallowance : allowance ≤ 1024) :
    consumed img base allowance ≤ consumed later base allowance := by
  refine Machine.consumed_le_consumed fun n hn struck => ?_
  rw [markStruck_iff] at struck ⊢
  exact h _ (by omega) _ struck

/-- Settles O59: outside an ERASE of the frame a step leaves every struck bit of it struck, and phase and counts follow. -/
theorem recordOnlyAdvances : Obligations.RecordOnlyAdvances := by
  intro s t f allowance wf hstep notErasing hallowance
  have kept : Image.StaysStruck (Memory.image s.array f) (Memory.image t.array f) :=
    (step_workLeaves hstep).staysStruck wf notErasing
  exact ⟨(kept 0 (by decide)).rank_phaseOf_le, kept.consumed_le_consumed (by decide) hallowance,
    kept.consumed_le_consumed (by decide) hallowance⟩

end Sys2Proof.Machine
end

section
/-! The grant condition (R21): what it is in each case of its table. -/

namespace Sys2Proof.Machine

theorem Grant.remaining_eq (g : Grant) : Grant.remaining g = g.allowance - max g.countA g.countB := rfl

/-- Without a window the epoch does not count. -/
theorem grantCondition_of_noWindow {g : Grant} (hw : g.window = none) (p : Policy) (epoch : Option Word) :
    grantCondition (.set p) false epoch g = if Grant.remaining g = 0 then .spent else .isOpen := by
  simp [grantCondition, hw]

theorem grantCondition_of_epochUnset {g : Grant} {w : Window} (hw : g.window = some w) (p : Policy) :
    grantCondition (.set p) false none g = .epochUnset := by
  simp [grantCondition, hw]

theorem grantCondition_of_window {g : Grant} {w : Window} (hw : g.window = some w) (p : Policy) (e : Word) :
    grantCondition (.set p) false (some e) g =
      if e.toNat < w.opens.toNat then .early
      else if w.closes.toNat ≤ e.toNat then .lapsed
      else if Grant.remaining g = 0 then .spent
      else .isOpen := by
  simp [grantCondition, hw]

/-- Settles O27, by the cases of the table: the class's status, the hold, the window and the epoch, then the bounds of the
window and the remaining units. -/
theorem conditionIsFirstMatch : Obligations.ConditionIsFirstMatch := by
  intro status held epoch g
  dsimp only
  rw [← Grant.remaining_eq]
  cases status with
  | unconfigured => simp [grantCondition]
  | faulted => simp [grantCondition]
  | set p =>
    cases held with
    | true => simp [grantCondition]
    | false =>
      cases hw : g.window with
      | none =>
        rw [grantCondition_of_noWindow hw]
        split <;> simp [*]
      | some w =>
        cases epoch with
        | none => simp [grantCondition_of_epochUnset hw]
        | some e =>
          rw [grantCondition_of_window hw]
          split_ifs <;> simp [*]

end Sys2Proof.Machine
end

section
/-! The phase marker (R3, R4, R6) and the bits a strike of it intends. -/

namespace Sys2Proof.Machine

/-- The decoded phase is the most advanced stage whose bit is struck. -/
theorem phaseOf_eq_iff (m : Byte) :
    (phaseOf m = .retired ↔ m.getLsbD 4 = false) ∧
      (phaseOf m = .moved ↔ ¬ m.getLsbD 4 = false ∧ m.getLsbD 5 = false) ∧
      (phaseOf m = .live ↔ ¬ m.getLsbD 4 = false ∧ ¬ m.getLsbD 5 = false ∧ m.getLsbD 6 = false) ∧
      (phaseOf m = .opening ↔
        ¬ m.getLsbD 4 = false ∧ ¬ m.getLsbD 5 = false ∧ ¬ m.getLsbD 6 = false ∧ m.getLsbD 7 = false) ∧
      (phaseOf m = .blank ↔
        ¬ m.getLsbD 4 = false ∧ ¬ m.getLsbD 5 = false ∧ ¬ m.getLsbD 6 = false ∧ ¬ m.getLsbD 7 = false) := by
  unfold phaseOf
  split_ifs <;> simp_all

theorem phaseOf_cleanMarker (p : Phase) : phaseOf (cleanMarker p) = p := by
  cases p <;> rfl

theorem irregular_eq_false_iff (m : Byte) : irregular m = false ↔ ∃ p, m = cleanMarker p := by
  simp only [irregular, decide_eq_false_iff_not, not_not]
  constructor
  · exact fun h => ⟨phaseOf m, h⟩
  · rintro ⟨p, rfl⟩
    rw [phaseOf_cleanMarker]

theorem eq_cleanMarker_iff (m : Byte) :
    (∃ p, m = cleanMarker p) ↔ m = 0xFF ∨ m = 0x7F ∨ m = 0x3F ∨ m = 0x1F ∨ m = 0x0F := by
  constructor
  · rintro ⟨p, rfl⟩
    cases p <;> simp [cleanMarker]
  · rintro (h | h | h | h | h)
    · exact ⟨.blank, h⟩
    · exact ⟨.opening, h⟩
    · exact ⟨.live, h⟩
    · exact ⟨.moved, h⟩
    · exact ⟨.retired, h⟩

theorem getLsbD_transitionBits (stage : Phase) (m : Byte) {i : Nat} (hi : i < 8) :
    (transitionBits stage m).getLsbD i = true ↔ (cleanMarker stage).getLsbD i = false ∧ m.getLsbD i = true := by
  simp [transitionBits, hi]

/-- BLANK is no exception: its clean value has no struck bit. -/
theorem regularisingBits_eq (m : Byte) : regularisingBits m = transitionBits (phaseOf m) m := by
  unfold regularisingBits
  split
  · next h => simp [h, transitionBits, cleanMarker]
  · rfl

end Sys2Proof.Machine
end

section
/-! Bytes of an image and the numbers they spell, most significant byte first (R181, log entry 6). -/

namespace Sys2Proof.Machine

/-! ### Numbers as bytes -/

@[simp] theorem length_be16 (n : Nat) : (be16 n).length = 2 := rfl

@[simp] theorem length_be32 (w : Word) : (be32 w).length = 4 := rfl

theorem beNat_pair (a b : Byte) : beNat [a, b] = a.toNat * 256 + b.toNat := by simp [beNat]

theorem beNat_quad (a b c d : Byte) :
    beNat [a, b, c, d] = ((a.toNat * 256 + b.toNat) * 256 + c.toNat) * 256 + d.toNat := by
  simp [beNat]

theorem toNat_append_byte {n : Nat} (x : BitVec n) (b : Byte) : (x ++ b).toNat = x.toNat * 256 + b.toNat := by
  rw [BitVec.toNat_append, ← Nat.shiftLeft_add_eq_or_of_lt b.isLt, Nat.shiftLeft_eq]

theorem ofNat_beNat_pair (a b : Byte) : BitVec.ofNat 16 (beNat [a, b]) = a ++ b := by
  apply BitVec.eq_of_toNat_eq
  rw [BitVec.toNat_ofNat, beNat_pair, toNat_append_byte]
  omega

theorem ofNat_beNat_quad (a b c d : Byte) : BitVec.ofNat 32 (beNat [a, b, c, d]) = a ++ b ++ c ++ d := by
  apply BitVec.eq_of_toNat_eq
  rw [BitVec.toNat_ofNat, beNat_quad, toNat_append_byte, toNat_append_byte, toNat_append_byte]
  omega

theorem beNat_be16 {n : Nat} (h : n < 65536) : beNat (be16 n) = n := by
  rw [be16, beNat_pair, BitVec.toNat_ofNat, BitVec.toNat_ofNat]
  omega

theorem beNat_be32 (w : Word) : beNat (be32 w) = w.toNat := by
  have := w.isLt
  simp only [be32, be16, List.cons_append, List.nil_append, beNat_quad, BitVec.toNat_ofNat]
  omega

/-! ### Bytes of an image -/

@[simp] theorem Image.length_bytes (img : Image) (o n : Nat) : (Image.bytes img o n).length = n := by
  simp [Image.bytes]

theorem Image.bytes_add (img : Image) (o n k : Nat) :
    Image.bytes img o (n + k) = Image.bytes img o n ++ Image.bytes img (o + n) k := by
  simp [Image.bytes, List.range_add, Nat.add_assoc]

theorem Image.nat_pair (img : Image) (o : Nat) :
    Image.nat img o 2 = (img o).toNat * 256 + (img (o + 1)).toNat := beNat_pair _ _

theorem Image.ofNat_nat_pair (img : Image) (o : Nat) :
    BitVec.ofNat 16 (Image.nat img o 2) = img o ++ img (o + 1) := ofNat_beNat_pair _ _

theorem Image.ofNat_nat_quad (img : Image) (o : Nat) :
    BitVec.ofNat 32 (Image.nat img o 4) = img o ++ img (o + 1) ++ img (o + 2) ++ img (o + 3) :=
  ofNat_beNat_quad _ _ _ _

/-- The bytes stand in the image from offset `o` on. -/
def Image.Holds (img : Image) (o : Nat) (bytes : List Byte) : Prop := Image.bytes img o bytes.length = bytes

theorem Image.holds_of_getD {img : Image} {o : Nat} {bytes : List Byte}
    (h : ∀ i < bytes.length, img (o + i) = bytes.getD i 0) : Image.Holds img o bytes := by
  refine List.ext_getElem (Image.length_bytes _ _ _) fun i hi hi' => ?_
  have hd := h i hi'
  rw [List.getD_eq_getElem _ _ hi'] at hd
  simpa [Image.bytes] using hd

/-- Bytes one after the other stand one after the other. -/
theorem Image.holds_append (img : Image) (o : Nat) (xs ys : List Byte) :
    Image.Holds img o (xs ++ ys) ↔ Image.Holds img o xs ∧ Image.Holds img (o + xs.length) ys := by
  unfold Image.Holds
  rw [List.length_append, Image.bytes_add]
  constructor
  · exact fun h => List.append_inj h (Image.length_bytes _ _ _)
  · rintro ⟨hx, hy⟩
    rw [hx, hy]

theorem Image.holds_cons (img : Image) (o : Nat) (b : Byte) (bytes : List Byte) :
    Image.Holds img o (b :: bytes) ↔ img o = b ∧ Image.Holds img (o + 1) bytes := by
  rw [← List.singleton_append, Image.holds_append]
  simp [Image.Holds, Image.bytes]

theorem Image.Holds.word {img : Image} {o : Nat} {w : Word} (h : Image.Holds img o (be32 w)) :
    BitVec.ofNat 32 (Image.nat img o 4) = w := by
  have bytes : Image.bytes img o 4 = be32 w := h
  rw [Image.nat, bytes, beNat_be32, BitVec.ofNat_toNat, BitVec.setWidth_eq]

theorem Image.Holds.nat16 {img : Image} {o n : Nat} (h : Image.Holds img o (be16 n)) (hn : n < 65536) :
    Image.nat img o 2 = n := by
  have bytes : Image.bytes img o 2 = be16 n := h
  rw [Image.nat, bytes, beNat_be16 hn]

end Sys2Proof.Machine
end

section
/-! The grant record (R2, R8, R14, R15): its fields as read, what makes a read sound, and that a record written whole reads back
as written. -/

namespace Sys2Proof.Machine

/-! ### Fields as read -/

theorem validKey_iff (k : Word) : validKey k = true ↔ k ≠ 0 ∧ k ≠ 0xFFFFFFFF := by simp [validKey]

theorem Image.keyPairConsistent_iff (img : Image) :
    Image.keyPairConsistent img = true ↔
      Image.keyComplement img = ~~~ (Image.key img) ∧ Image.key img ≠ 0 ∧ Image.key img ≠ 0xFFFFFFFF := by
  simp [Image.keyPairConsistent, validKey_iff]

theorem Image.soundFor_iff (img : Image) (e : Entry) :
    Image.soundFor img e = true ↔ Image.sound img = true ∧ Image.key img = e.key ∧ Image.gen img = e.gen := by
  simp [Image.soundFor, and_assoc]

theorem Image.sound_iff (img : Image) :
    Image.sound img = true ↔
      phaseOf (img 0) = .live ∧ Image.keyPairConsistent img = true ∧ Image.fieldsInRange img = true ∧
        Image.codePasses img = true := by
  simp [Image.sound, and_assoc]

/-- The range of the key is condition 2 of R15 already. -/
theorem Image.fieldsInRange_iff {img : Image} (h : Image.keyPairConsistent img = true) :
    Image.fieldsInRange img = true ↔
      (Image.classByte img).toNat ≤ 15 ∧ 1 ≤ Image.allowance img ∧ Image.allowance img ≤ 1024 ∧
        (Image.presence img = 0 ∨ Image.presence img = 1) ∧ Image.labelLength img ≤ 24 := by
  have valid : validKey (Image.key img) = true := (validKey_iff _).mpr ((Image.keyPairConsistent_iff img).mp h).2
  simp [Image.fieldsInRange, valid, and_assoc, Nat.lt_succ_iff]

theorem Image.label_of_le {img : Image} (h : Image.labelLength img ≤ 24) :
    Image.label img = (List.range (Image.labelLength img)).map fun i => img (24 + i) := by
  rw [Image.label, Nat.min_eq_right h, Image.bytes]

/-- The nine bytes of a window: the presence byte, opens and closes, all H'00 without one (R11, R14). -/
def windowBytes : Option Window → List Byte
  | none => List.replicate 9 0
  | some w => (1 : Byte) :: (be32 w.opens ++ be32 w.closes)

theorem coveredBytes_eq (key : Word) (gen : Gen) (cls : Byte) (allowance : Nat) (window : Option Window)
    (label : List Byte) (topups : Nat) :
    coveredBytes key gen cls allowance window label topups =
      be32 key ++ be16 gen.toNat ++ [cls] ++ be16 allowance ++ windowBytes window ++ [BitVec.ofNat 8 label.length] ++
        label ++ [BitVec.ofNat 8 topups] := by
  cases window <;> rfl

theorem recordBytes_eq (r : NewRecord) :
    recordBytes r =
      be32 r.key ++ be32 (~~~ r.key) ++ be16 r.gen.toNat ++ [BitVec.ofNat 8 r.cls.val] ++ be16 r.allowance ++
        windowBytes r.window ++ [BitVec.ofNat 8 r.label.length] ++ r.label ++
        List.replicate (24 - r.label.length) 0xFF ++ [BitVec.ofNat 8 r.topups] ++
        be32
          (checkCode
            (coveredBytes r.key r.gen (BitVec.ofNat 8 r.cls.val) r.allowance r.window r.label r.topups)) := by
  unfold recordBytes
  cases r.window <;> rfl

@[simp] theorem length_windowBytes (window : Option Window) : (windowBytes window).length = 9 := by
  cases window <;> rfl

theorem length_recordBytes {r : NewRecord} (h : r.label.length ≤ 24) : (recordBytes r).length = 52 := by
  simp only [recordBytes_eq, List.length_append, length_be32, length_be16, length_windowBytes, List.length_singleton,
    List.length_replicate]
  omega

theorem Image.windowBytes_window (img : Image) :
    windowBytes (Image.window img) =
      if Image.presence img = 1 then (1 : Byte) :: (be32 (Image.opens img) ++ be32 (Image.closes img))
      else List.replicate 9 0 := by
  unfold Image.window
  split <;> rfl

/-- The check code covers the fields as read, the label being of its 24 places (R14). -/
theorem Image.codePasses_iff {img : Image} (h : Image.labelLength img ≤ 24) :
    Image.codePasses img = true ↔
      Image.storedCode img =
        checkCode
          (be32 (Image.key img) ++ be16 (Image.gen img).toNat ++ [Image.classByte img] ++
            be16 (Image.allowance img) ++
            (if Image.presence img = 1 then (1 : Byte) :: (be32 (Image.opens img) ++ be32 (Image.closes img))
              else List.replicate 9 0) ++
            [BitVec.ofNat 8 (Image.labelLength img)] ++
            (List.range (Image.labelLength img)).map (fun i => img (24 + i)) ++
            [BitVec.ofNat 8 (Image.topups img)]) := by
  have length : (Image.label img).length = Image.labelLength img := by simp [Image.label_of_le h]
  rw [Image.codePasses, decide_eq_true_iff, coveredBytes_eq, Image.windowBytes_window, length, Image.label_of_le h]

/-- The fields as read, by the bytes at their places (R2, log entry 6). -/
theorem Image.fields_eq (img : Image) :
    Image.key img = img 1 ++ img 2 ++ img 3 ++ img 4 ∧ Image.keyComplement img = img 5 ++ img 6 ++ img 7 ++ img 8 ∧
      Image.gen img = img 9 ++ img 10 ∧ Image.classByte img = img 11 ∧
      Image.allowance img = (img 12).toNat * 256 + (img 13).toNat ∧ Image.presence img = img 14 ∧
      Image.opens img = img 15 ++ img 16 ++ img 17 ++ img 18 ∧
      Image.closes img = img 19 ++ img 20 ++ img 21 ++ img 22 ∧ Image.labelLength img = (img 23).toNat ∧
      Image.topups img = (img 48).toNat ∧ Image.storedCode img = img 49 ++ img 50 ++ img 51 ++ img 52 :=
  ⟨Image.ofNat_nat_quad img 1, Image.ofNat_nat_quad img 5, Image.ofNat_nat_pair img 9, rfl, Image.nat_pair img 12, rfl,
    Image.ofNat_nat_quad img 15, Image.ofNat_nat_quad img 19, rfl, rfl, Image.ofNat_nat_quad img 49⟩

/-- The conditions of R15, the check code's last but for the entry's. -/
theorem Image.soundFor_iff_conditions (img : Image) (e : Entry) :
    Image.soundFor img e = true ↔
      phaseOf (img 0) = .live ∧
        (Image.keyComplement img = ~~~ (Image.key img) ∧ Image.key img ≠ 0 ∧ Image.key img ≠ 0xFFFFFFFF) ∧
        ((Image.classByte img).toNat ≤ 15 ∧ 1 ≤ Image.allowance img ∧ Image.allowance img ≤ 1024 ∧
          (Image.presence img = 0 ∨ Image.presence img = 1) ∧ Image.labelLength img ≤ 24) ∧
        Image.storedCode img =
          checkCode
            (be32 (Image.key img) ++ be16 (Image.gen img).toNat ++ [Image.classByte img] ++
              be16 (Image.allowance img) ++
              (if Image.presence img = 1 then (1 : Byte) :: (be32 (Image.opens img) ++ be32 (Image.closes img))
                else List.replicate 9 0) ++
              [BitVec.ofNat 8 (Image.labelLength img)] ++
              (List.range (Image.labelLength img)).map (fun i => img (24 + i)) ++
              [BitVec.ofNat 8 (Image.topups img)]) ∧
        Image.key img = e.key ∧ Image.gen img = e.gen := by
  rw [Image.soundFor_iff, Image.sound_iff, ← Image.keyPairConsistent_iff]
  constructor
  · rintro ⟨⟨hlive, hpair, hrange, hcode⟩, hentry⟩
    have range := (Image.fieldsInRange_iff hpair).mp hrange
    have ⟨_, _, _, _, hlabel⟩ := range
    exact ⟨hlive, hpair, range, (Image.codePasses_iff hlabel).mp hcode, hentry⟩
  · rintro ⟨hlive, hpair, range, hcode, hentry⟩
    have ⟨_, _, _, _, hlabel⟩ := range
    exact ⟨⟨hlive, hpair, (Image.fieldsInRange_iff hpair).mpr range, (Image.codePasses_iff hlabel).mpr hcode⟩, hentry⟩

/-- The complete reading of a record whose class and label length are in range. -/
theorem Image.grant_eq {img : Image} (hcls : (Image.classByte img).toNat ≤ 15) (hlabel : Image.labelLength img ≤ 24) :
    ∃ cls : ClassNo,
      cls.val = (Image.classByte img).toNat ∧
        Image.grant img =
          { marker := img 0, key := Image.key img, gen := Image.gen img, cls := cls
            allowance := Image.allowance img
            window :=
              if Image.presence img = 1 then some { opens := Image.opens img, closes := Image.closes img } else none
            label := (List.range (Image.labelLength img)).map fun i => img (24 + i)
            topups := Image.topups img, countA := consumed img tallyA (Image.allowance img)
            countB := consumed img tallyB (Image.allowance img) } := by
  refine ⟨Fin.ofNat 16 (Image.classByte img).toNat, Nat.mod_eq_of_lt (by omega), ?_⟩
  rw [← Image.label_of_le hlabel]
  rfl

/-! ### A record written whole -/

/-- The fields of the record as written stand in the image. -/
structure Image.ReadsAs (img : Image) (r : NewRecord) : Prop where
  key : Image.key img = r.key
  keyComplement : Image.keyComplement img = ~~~ r.key
  gen : Image.gen img = r.gen
  classByte : Image.classByte img = BitVec.ofNat 8 r.cls.val
  allowance : Image.allowance img = r.allowance
  presence : Image.presence img = 0 ∨ Image.presence img = 1
  window : Image.window img = r.window
  label : Image.label img = r.label
  labelLength : Image.labelLength img = r.label.length
  topups : Image.topups img = r.topups
  storedCode :
    Image.storedCode img =
      checkCode (coveredBytes r.key r.gen (BitVec.ofNat 8 r.cls.val) r.allowance r.window r.label r.topups)

theorem Image.Holds.window {img : Image} {window : Option Window} (h : Image.Holds img 14 (windowBytes window)) :
    (Image.presence img = 0 ∨ Image.presence img = 1) ∧ Image.window img = window := by
  cases window with
  | none =>
    have absent : Image.presence img = 0 := ((Image.holds_cons img 14 0 (List.replicate 8 0)).mp h).1
    exact ⟨.inl absent, by simp [Image.window, absent]⟩
  | some w =>
    obtain ⟨present, times⟩ := (Image.holds_cons img 14 1 _).mp h
    obtain ⟨hopens, hcloses⟩ := (Image.holds_append img 15 _ _).mp times
    have present : Image.presence img = 1 := present
    have opens : Image.opens img = w.opens := hopens.word
    have closes : Image.closes img = w.closes := hcloses.word
    exact ⟨.inr present, by simp [Image.window, present, opens, closes]⟩

/-- A record written whole has every field read back as written. -/
theorem Image.readsAs_of_holds {img : Image} {r : NewRecord} (h : Image.Holds img recordStart (recordBytes r))
    (hallowance : r.allowance ≤ 1024) (hlabel : r.label.length ≤ 24) (htopups : r.topups ≤ 255) :
    Image.ReadsAs img r := by
  have last : 1 + (4 + 4 + 2 + 1 + 2 + 9 + 1 + r.label.length + (24 - r.label.length)) = 48 := by omega
  have code : 1 + (4 + 4 + 2 + 1 + 2 + 9 + 1 + r.label.length + (24 - r.label.length) + 1) = 49 := by omega
  rw [recordBytes_eq, recordStart] at h
  simp only [Image.holds_append, Image.holds_cons, List.length_append, length_be32, length_be16, length_windowBytes,
    List.length_singleton, List.length_replicate, and_assoc, last, code] at h
  obtain ⟨hkey, hcomplement, hgen, hcls, _, hallow, hwindow, hlength, _, hlabelBytes, _, htop, _, hcode⟩ := h
  obtain ⟨presence, window⟩ := Image.Holds.window hwindow
  have labelLength : Image.labelLength img = r.label.length := by
    rw [Image.labelLength, hlength, BitVec.toNat_ofNat]
    omega
  exact
    { key := hkey.word
      keyComplement := hcomplement.word
      gen := by rw [Image.gen, hgen.nat16 r.gen.isLt, BitVec.ofNat_toNat, BitVec.setWidth_eq]
      classByte := hcls
      allowance := hallow.nat16 (by omega)
      presence := presence
      window := window
      label := by
        rw [Image.label, labelLength, Nat.min_eq_right hlabel]
        exact hlabelBytes
      labelLength := labelLength
      topups := by
        rw [Image.topups, htop, BitVec.toNat_ofNat]
        omega
      storedCode := hcode.word }

theorem toNat_classByte (cls : ClassNo) : (BitVec.ofNat 8 cls.val).toNat = cls.val := by
  rw [BitVec.toNat_ofNat]
  omega

/-- A LIVE frame whose record reads as one in range reads sound. -/
theorem Image.ReadsAs.sound {img : Image} {r : NewRecord} (h : Image.ReadsAs img r) (live : phaseOf (img 0) = .live)
    (hkey : r.key ≠ 0 ∧ r.key ≠ 0xFFFFFFFF) (hallowance : 1 ≤ r.allowance ∧ r.allowance ≤ 1024)
    (hlabel : r.label.length ≤ 24) : Image.sound img = true := by
  have pair : Image.keyPairConsistent img = true := by
    rw [Image.keyPairConsistent_iff, h.keyComplement, h.key]
    exact ⟨rfl, hkey⟩
  have range : Image.fieldsInRange img = true := by
    rw [Image.fieldsInRange_iff pair, h.classByte, toNat_classByte, h.allowance, h.labelLength]
    exact ⟨Nat.le_of_lt_succ r.cls.isLt, hallowance.1, hallowance.2, h.presence, hlabel⟩
  have code : Image.codePasses img = true := by
    rw [Image.codePasses, decide_eq_true_iff, h.storedCode, h.key, h.gen, h.classByte, h.allowance, h.window, h.label,
      h.topups]
  exact (Image.sound_iff img).mpr ⟨live, pair, range, code⟩

theorem Image.ReadsAs.grant {img : Image} {r : NewRecord} (h : Image.ReadsAs img r) :
    Image.grant img =
      { marker := img 0, key := r.key, gen := r.gen, cls := r.cls, allowance := r.allowance, window := r.window,
        label := r.label, topups := r.topups, countA := consumed img tallyA r.allowance,
        countB := consumed img tallyB r.allowance } := by
  have cls : Fin.ofNat 16 r.cls.val = r.cls := Fin.ext (Nat.mod_eq_of_lt r.cls.isLt)
  rw [Image.grant, h.key, h.gen, h.classByte, toNat_classByte, cls, h.allowance, h.window, h.label, h.topups]

/-- Settles O47: the marker and its strikes, the fields as read, the conditions of a sound read, the record read back. -/
theorem grantRecordReadsBackAsWritten : Obligations.GrantRecordReadsBackAsWritten := by
  refine ⟨fun m => ?_, ⟨rfl, fun stage m i hi => ?_⟩, fun img e => ?_, Image.soundFor_iff_conditions, ?_⟩
  · obtain ⟨retired, moved, live, opening, blank⟩ := phaseOf_eq_iff m
    exact ⟨retired, moved, live, opening, blank, (irregular_eq_false_iff m).trans (eq_cleanMarker_iff m)⟩
  · rw [regularisingBits_eq]
    exact ⟨getLsbD_transitionBits stage m hi, getLsbD_transitionBits (phaseOf m) m hi⟩
  · exact ⟨Image.fields_eq img, Image.keyPairConsistent_iff img, Image.soundFor_iff img e, Image.grant_eq⟩
  · intro r img hzero hones hleast hmost hlabel htopups
    have length := length_recordBytes hlabel
    refine ⟨length, rfl, fun live bytes => ?_⟩
    have holds : Image.Holds img recordStart (recordBytes r) :=
      Image.holds_of_getD fun i hi => bytes i (length ▸ hi)
    have reads := Image.readsAs_of_holds holds hmost hlabel htopups
    exact ⟨reads.sound live ⟨hzero, hones⟩ ⟨hleast, hmost⟩ hlabel, reads.grant⟩

end Sys2Proof.Machine
end

section
/-! What the link port changes: the link, the slots, the epoch, the holds and the counter of free values (R181 to R191). -/

namespace Sys2Proof.Machine

/-- From `s` to `t` nothing changed but the link, the slots, the epoch, the holds and the counter of free values. -/
structure State.LinkPortOnly (s t : State) : Prop where
  pins : t.pins = s.pins
  part : t.part = s.part
  job : t.engine.job = s.engine.job
  held : t.engine.held = s.engine.held
  index : t.index = s.index
  policies : t.policies = s.policies
  pools : t.pools = s.pools
  ctrl : t.ctrl = s.ctrl
  mount : t.mount = s.mount
  array : t.array = s.array
  pending : t.pending = s.pending

theorem State.LinkPortOnly.refl (s : State) : State.LinkPortOnly s s := by constructor <;> rfl

theorem State.LinkPortOnly.setTransaction {s t : State} (h : State.LinkPortOnly s t) (transaction : Option Transaction) :
    State.LinkPortOnly s (State.setTransaction t transaction) :=
  ⟨h.pins, h.part, h.job, h.held, h.index, h.policies, h.pools, h.ctrl, h.mount, h.array, h.pending⟩

theorem State.chipSelectFall_linkPortOnly (s : State) : State.LinkPortOnly s (State.chipSelectFall s) := by
  unfold State.chipSelectFall
  repeat' split
  all_goals constructor <;> rfl

theorem State.submission_linkPortOnly (s : State) (code tag : Byte) (args : List Byte) (crc : Word) :
    State.LinkPortOnly s (State.submission s code tag args crc) := by
  unfold State.submission
  split
  · split
    · dsimp only
      split <;> constructor <;> rfl
    · exact .refl s
  · exact .refl s

theorem State.submissionTruncated_linkPortOnly (s : State) (bytes : List Byte) :
    State.LinkPortOnly s (State.submissionTruncated s bytes) := by
  unfold State.submissionTruncated
  repeat' split
  all_goals constructor <;> rfl

theorem State.collect_linkPortOnly (s : State) : State.LinkPortOnly s (State.collect s) := by
  unfold State.collect
  repeat' split
  all_goals constructor <;> rfl

theorem State.recordShiftedOut_linkPortOnly (s : State) : State.LinkPortOnly s (State.recordShiftedOut s) := by
  unfold State.recordShiftedOut
  split <;> constructor <;> rfl

theorem State.changeHold_linkPortOnly (s : State) (cls : Byte) (hold : Bool) :
    State.LinkPortOnly s (State.changeHold s cls hold).1 := by
  unfold State.changeHold
  repeat' split
  all_goals constructor <;> rfl

theorem State.cancel_linkPortOnly (s : State) (tag : Byte) : State.LinkPortOnly s (State.cancel s tag).1 := by
  unfold State.cancel
  dsimp only
  split <;> constructor <;> rfl

theorem State.immediate_linkPortOnly {s : State} (code : Byte) {act : Byte → State × List Byte}
    (h : ∀ captured, State.LinkPortOnly s (act captured).1) : State.LinkPortOnly s (State.immediate s code act) := by
  unfold State.immediate
  split
  · exact (h _).setTransaction _
  · exact .refl s

/-- The commands and events that only the link port takes: all of a transaction but RESTART. -/
def linkCommand : Instr → Bool
  | .chipSelectFall => true
  | .submission _ _ _ _ => true
  | .submissionTruncated _ => true
  | .status => true
  | .collect => true
  | .recordShiftedOut => true
  | .info => true
  | .setEpoch _ => true
  | .holdClass _ => true
  | .releaseClass _ => true
  | .cancel _ => true
  | .unknownImmediateCommand _ => true
  | .transactionEnd => true
  | _ => false

theorem exec_linkPortOnly {c : Instr} (hc : linkCommand c = true) {s t : State} (h : exec c s = .next t) :
    State.LinkPortOnly s t := by
  cases c with
  | chipSelectFall => cases h; exact State.chipSelectFall_linkPortOnly s
  | submission code tag args crc => cases h; exact State.submission_linkPortOnly s code tag args crc
  | submissionTruncated bytes => cases h; exact State.submissionTruncated_linkPortOnly s bytes
  | status => cases h; exact State.immediate_linkPortOnly _ fun _ => by constructor <;> rfl
  | collect => cases h; exact State.collect_linkPortOnly s
  | recordShiftedOut => cases h; exact State.recordShiftedOut_linkPortOnly s
  | info => cases h; exact State.immediate_linkPortOnly _ fun _ => by constructor <;> rfl
  | setEpoch value => cases h; exact State.immediate_linkPortOnly _ fun _ => by constructor <;> rfl
  | holdClass cls => cases h; exact State.immediate_linkPortOnly _ fun _ => State.changeHold_linkPortOnly s cls true
  | releaseClass cls => cases h; exact State.immediate_linkPortOnly _ fun _ => State.changeHold_linkPortOnly s cls false
  | cancel tag => cases h; exact State.immediate_linkPortOnly _ fun _ => State.cancel_linkPortOnly s tag
  | unknownImmediateCommand code =>
    cases h
    split
    · exact .refl s
    · exact State.immediate_linkPortOnly _ fun _ => .refl s
  | transactionEnd => cases h; exact (State.LinkPortOnly.refl s).setTransaction none
  | _ => exact absurd hc Bool.false_ne_true

end Sys2Proof.Machine
end

section
/-! The keys of the index stay distinct and in order (R25) while the command in progress goes on, outside a mount. -/

namespace Sys2Proof.Machine

/-! ### What the keys rest on outside a mount -/

/-- The key that an ISSUE is writing is not in the index (R28, R71). -/
def Writing.NewIn (w : Writing) (index : List Entry) : Prop := w.old = none → ∀ e ∈ index, e.key ≠ w.record.key

/-- What the keys rest on in a step of the command in progress: the key it writes is new, and FORMAT's index is empty (R159). -/
structure EngineStep.KeysOk (step : EngineStep) (index : List Entry) : Prop where
  new : ∀ w ∈ EngineStep.writing step, Writing.NewIn w index
  empty : EngineStep.formats step = true → index = []

/-- No mount is in progress and the index is in order. -/
structure State.OffMount (s : State) : Prop where
  work : s.mount.work = none
  ordered : State.indexOk s

/-- A step that writes no record and is none of FORMAT's rests on nothing. -/
theorem EngineStep.keysOk_plain {step : EngineStep} (writing : EngineStep.writing step = none)
    (formats : EngineStep.formats step = false) (index : List Entry) : EngineStep.KeysOk step index :=
  ⟨by simp [writing], by simp [formats]⟩

theorem EngineStep.keysOk_writing {step : EngineStep} {w : Writing} {index : List Entry}
    (writing : EngineStep.writing step = some w) (formats : EngineStep.formats step = false)
    (new : Writing.NewIn w index) : EngineStep.KeysOk step index :=
  ⟨by simpa [writing] using new, by simp [formats]⟩

theorem EngineStep.keysOk_empty (step : EngineStep) : EngineStep.KeysOk step [] :=
  ⟨fun _ _ _ _ he => absurd he List.not_mem_nil, fun _ => rfl⟩

theorem State.OffMount.keysOk {s : State} (h : State.OffMount s)
    (job : ∀ j ∈ s.engine.job, EngineStep.KeysOk j.step s.index) : State.keysOk s :=
  ⟨h.ordered, fun j hj => ⟨(job j hj).new, fun hf _ => (job j hj).empty hf⟩, by simp [h.work]⟩

/-- With the keys in order and no mount in progress the step of the command in progress has what it rests on. -/
theorem EngineStep.keysOk_of_job {s : State} (keys : State.keysOk s) (work : s.mount.work = none) {j : Job}
    (hj : s.engine.job = some j) : EngineStep.KeysOk j.step s.index :=
  have ⟨new, formats⟩ := keys.2.1 j hj
  ⟨new, fun hf => formats hf work⟩

theorem State.OffMount.setIndex {s : State} (h : State.OffMount s) {index : List Entry}
    (ordered : index.Pairwise fun d e => d.key.toNat < e.key.toNat) : State.OffMount (State.setIndex s index) :=
  ⟨h.work, ordered⟩

theorem State.OffMount.setPools {s : State} (h : State.OffMount s) (p : FramePools) :
    State.OffMount (State.setPools s p) := ⟨h.work, h.ordered⟩

theorem State.OffMount.setHeld {s : State} (h : State.OffMount s) (held : Option Frame) :
    State.OffMount (State.setHeld s held) := ⟨h.work, h.ordered⟩

theorem State.OffMount.setStatus {s : State} (h : State.OffMount s) (k : ClassNo) (status : ClassStatus) :
    State.OffMount (State.setStatus s k status) := ⟨h.work, h.ordered⟩

theorem State.OffMount.markCorrupt {s : State} (h : State.OffMount s) (e : Entry) (img : Image) :
    State.OffMount (State.markCorrupt s e img) := h.setIndex (pairwise_markEntry h.ordered)

/-! ### A command ends, or goes on to a step -/

theorem State.clearForRestart_keysOk (s : State) : State.keysOk (State.clearForRestart s) := by
  rw [State.clearForRestart_eq]
  simp [State.keysOk, State.indexOk, State.reset, MountWork.stepOk]

theorem State.OffMount.post_keysOk {s : State} (h : State.OffMount s) (cmd : Command) (r : Result) :
    State.keysOk (State.post s cmd r) := by
  unfold State.post
  split
  · exact State.clearForRestart_keysOk s
  · exact State.OffMount.keysOk ⟨h.work, h.ordered⟩ (by simp)

theorem State.OffMount.claimStep_keysOk {s : State} (h : State.OffMount s) {step : EngineStep}
    (hstep : EngineStep.KeysOk step s.index) (cmd : Command) (k : Claim) :
    State.keysOk (State.claimStep s cmd step k) := State.OffMount.keysOk ⟨h.work, h.ordered⟩ (by simpa using hstep)

/-- A step that neither writes a record nor is FORMAT's. -/
theorem State.OffMount.claimPlain_keysOk {s : State} (h : State.OffMount s) {step : EngineStep}
    (writing : EngineStep.writing step = none) (formats : EngineStep.formats step = false) (cmd : Command) (k : Claim) :
    State.keysOk (State.claimStep s cmd step k) := h.claimStep_keysOk (EngineStep.keysOk_plain writing formats _) cmd k

theorem State.OffMount.claimWriting_keysOk {s : State} (h : State.OffMount s) {w : Writing} (new : Writing.NewIn w s.index)
    {step : EngineStep} (writing : EngineStep.writing step = some w) (formats : EngineStep.formats step = false)
    (cmd : Command) (k : Claim) : State.keysOk (State.claimStep s cmd step k) :=
  h.claimStep_keysOk (EngineStep.keysOk_writing writing formats new) cmd k

/-! ### Takes and the writing of a new record -/

section Writing

variable {s : State} (h : State.OffMount s) {w : Writing} (new : Writing.NewIn w s.index) (cmd : Command)
include h new

theorem State.writeInto_keysOk (f : Frame) : State.keysOk (State.writeInto s cmd w f) :=
  (h.setHeld (some f)).claimWriting_keysOk new rfl rfl cmd _

theorem State.demandNext_keysOk : State.keysOk (State.demandNext s cmd w) := by
  unfold State.demandNext
  split
  · exact h.claimWriting_keysOk new rfl rfl cmd _
  · exact h.post_keysOk cmd _

theorem State.demandReclaim_keysOk : State.keysOk (State.demandReclaim s cmd w) := by
  have erases : EngineStep.KeysOk (.takeErase w) s.index := EngineStep.keysOk_writing rfl rfl new
  unfold State.demandReclaim
  split
  · exact State.OffMount.keysOk ⟨h.work, h.ordered⟩ (by simpa using erases)
  · exact State.OffMount.keysOk ⟨h.work, h.ordered⟩ (by simpa using erases)
  · exact h.claimWriting_keysOk new rfl rfl cmd _
  · exact State.demandNext_keysOk h new cmd

theorem State.take_keysOk : State.keysOk (State.take s cmd w) := by
  unfold State.take
  split
  · exact State.writeInto_keysOk (h.setPools _) new cmd _
  · exact State.demandReclaim_keysOk h new cmd

theorem State.newFrameReleased_keysOk (f : Frame) (verified : Bool) :
    State.keysOk (State.newFrameReleased s cmd w f verified) := by
  have off := (h.setPools (FramePools.afterMark s.pools f verified)).setHeld none
  unfold State.newFrameReleased
  dsimp only
  split
  · exact State.take_keysOk (w := { w with failed := w.failed + 1 }) off new cmd
  · exact off.post_keysOk cmd _

/-- The entry an ISSUE inserts has a key the index did not hold (R28). -/
theorem State.newFrameLive_keysOk (f : Frame) : State.keysOk (State.newFrameLive s cmd w f) := by
  unfold State.newFrameLive
  split
  · next old =>
    have ordered : (insertEntry ⟨w.record.key, f, 0, some w.record.cls⟩ s.index).Pairwise _ :=
      pairwise_insertEntry h.ordered (new old)
    exact ((h.setIndex ordered).setHeld none).post_keysOk cmd _
  · exact h.claimWriting_keysOk new rfl rfl cmd _

theorem State.demandErased_keysOk (f : Frame) (verified : Bool) :
    State.keysOk (State.demandErased s cmd w f verified) := by
  unfold State.demandErased
  split
  · exact State.writeInto_keysOk (h.setPools _) new cmd f
  · exact h.claimWriting_keysOk new rfl rfl cmd _

theorem State.demandMarked_keysOk (f : Frame) (verified : Bool) :
    State.keysOk (State.demandMarked s cmd w f verified) := by
  have off := h.setPools (FramePools.afterMark { s.pools with reclaim := removeFrame f s.pools.reclaim } f verified)
  exact State.demandNext_keysOk off new cmd

end Writing

/-! ### The other continuations -/

section Continuations

variable {s : State} (h : State.OffMount s) (cmd : Command)
include h

theorem State.fallback_keysOk (f : Frame) (fallback lost : Result) :
    State.keysOk (State.fallback s cmd f fallback lost) :=
  (h.setHeld (some f)).claimPlain_keysOk rfl rfl cmd _

theorem State.movedDone_keysOk (w : Writing) (o : OldGrant) (new : Frame) (verified : Bool) :
    State.keysOk (State.movedDone s cmd w o new verified) := by
  have ordered := pairwise_repointEntry (key := w.record.key) (frame := new) (gen := w.record.gen) h.ordered
  unfold State.movedDone
  dsimp only
  split
  · exact (((h.setIndex ordered).setPools _).setHeld none).post_keysOk cmd _
  · exact State.fallback_keysOk (h.setIndex ordered) cmd _ _ _

theorem State.retiredDone_keysOk (e : Ending) (f : Frame) (verified : Bool) :
    State.keysOk (State.retiredDone s cmd e f verified) := by
  have ordered := pairwise_removeEntry (key := e.key) h.ordered
  unfold State.retiredDone
  dsimp only
  split
  · exact ((h.setIndex ordered).setPools _).post_keysOk cmd _
  · exact State.fallback_keysOk (h.setIndex ordered) cmd _ _ _

theorem State.retire_keysOk (e : Ending) (f : Frame) (bits : Byte) : State.keysOk (State.retire s cmd e f bits) := by
  unfold State.retire
  split
  · exact State.retiredDone_keysOk h cmd e f true
  · exact h.claimPlain_keysOk rfl rfl cmd _

theorem State.lookupRead_keysOk (snap : Snapshot) (e : Entry) (f : Frame) (img : Image) :
    State.keysOk (State.lookupRead s cmd snap e f img) := by
  unfold State.lookupRead
  split
  · exact State.OffMount.post_keysOk (s := { s with freeUses := s.freeUses + 1 }) ⟨h.work, h.ordered⟩ cmd _
  · exact (h.markCorrupt e img).post_keysOk cmd _

theorem State.drawRead_keysOk (snap : Snapshot) (e : Entry) (f : Frame) (img : Image) :
    State.keysOk (State.drawRead s cmd snap e f img) := by
  unfold State.drawRead
  split
  · dsimp only
    split
    · split
      · exact h.post_keysOk cmd _
      · split
        · exact h.post_keysOk cmd _
        · split
          · exact h.post_keysOk cmd _
          · exact h.claimPlain_keysOk rfl rfl cmd _
    · exact h.post_keysOk cmd _
  · exact (h.markCorrupt e img).post_keysOk cmd _

theorem State.drawStruckB_keysOk (d : Drawing) (e : Entry) (verifiedA : Bool) (f : Frame) (verifiedB : Bool) :
    State.keysOk (State.drawStruckB s cmd d e verifiedA f verifiedB) := by
  unfold State.drawStruckB
  split
  · exact h.claimPlain_keysOk rfl rfl cmd _
  · dsimp only
    split
    · exact State.retire_keysOk h cmd _ f _
    · exact h.post_keysOk cmd _

theorem State.drawReadBack_keysOk (d : Drawing) (e : Entry) (img : Image) :
    State.keysOk (State.drawReadBack s cmd d e img) := by
  unfold State.drawReadBack
  split
  · exact h.post_keysOk cmd _
  · exact (h.markCorrupt e img).post_keysOk cmd _

theorem State.topupRead_keysOk (snap : Snapshot) (e : Entry) (f : Frame) (img : Image) :
    State.keysOk (State.topupRead s cmd snap e f img) := by
  unfold State.topupRead
  split
  · dsimp only
    split
    · split
      · exact h.post_keysOk cmd _
      · split
        · exact h.post_keysOk cmd _
        · split
          · exact h.post_keysOk cmd _
          · exact State.take_keysOk h (by simp [Writing.NewIn]) cmd
    · exact h.post_keysOk cmd _
  · exact (h.markCorrupt e img).post_keysOk cmd _

theorem State.moveRead_keysOk (e : Entry) (f : Frame) (img : Image) :
    State.keysOk (State.moveRead s cmd e f img) := by
  unfold State.moveRead
  split
  · dsimp only
    split
    · exact h.post_keysOk cmd _
    · exact State.take_keysOk h (by simp [Writing.NewIn]) cmd
  · exact (h.markCorrupt e img).post_keysOk cmd _

theorem State.revokeRead_keysOk (snap : Snapshot) (e : Entry) (f : Frame) (img : Image) :
    State.keysOk (State.revokeRead s cmd snap e f img) := by
  unfold State.revokeRead
  dsimp only
  split
  · exact State.retire_keysOk h cmd _ f _
  · split
    · split
      · split
        · exact State.retire_keysOk h cmd _ f _
        · exact h.post_keysOk cmd _
      · exact h.post_keysOk cmd _
    · exact State.retire_keysOk (h.markCorrupt e img) cmd _ f _

theorem State.configureStruck_keysOk (k : ClassNo) (p : Policy) (verified : Bool) :
    State.keysOk (State.configureStruck s cmd k p verified) := by
  unfold State.configureStruck
  split
  · exact (h.setStatus k _).post_keysOk cmd _
  · exact h.claimPlain_keysOk rfl rfl cmd _

theorem State.configureRead_keysOk (k : ClassNo) (img : Image) : State.keysOk (State.configureRead s cmd k img) :=
  (h.setStatus k _).post_keysOk cmd _

theorem State.purgeNext_keysOk (members : List Frame) (moved failed : Nat) :
    State.keysOk (State.purgeNext s cmd members moved failed) := by
  unfold State.purgeNext
  split
  · exact h.claimPlain_keysOk rfl rfl cmd _
  · exact h.post_keysOk cmd _

theorem State.purgeStruck_keysOk (f : Frame) (rest : List Frame) (moved failed : Nat) (verified : Bool) :
    State.keysOk (State.purgeStruck s cmd f rest moved failed verified) :=
  State.purgeNext_keysOk (h.setPools _) cmd rest _ _

theorem State.fallbackErased_keysOk (fallback lost : Result) (f : Frame) (verified : Bool) :
    State.keysOk (State.fallbackErased s cmd fallback lost f verified) := by
  unfold State.fallbackErased
  split
  · exact ((h.setPools _).setHeld none).post_keysOk cmd _
  · exact h.claimPlain_keysOk rfl rfl cmd _

theorem State.fallbackMarked_keysOk (fallback lost : Result) (f : Frame) (verified : Bool) :
    State.keysOk (State.fallbackMarked s cmd fallback lost f verified) :=
  ((h.setPools _).setHeld none).post_keysOk cmd _

end Continuations

/-! ### FORMAT -/

section Format

variable {s : State} (work : s.mount.work = none) (empty : s.index = []) (cmd : Command)
include work empty

theorem State.OffMount.of_empty : State.OffMount s := ⟨work, by simp [State.indexOk, empty]⟩

/-- FORMAT's steps rest on an empty index (R159). -/
theorem State.claimStep_keysOk_of_empty (step : EngineStep) (k : Claim) :
    State.keysOk (State.claimStep s cmd step k) :=
  (State.OffMount.of_empty work empty).claimStep_keysOk (empty ▸ EngineStep.keysOk_empty step) cmd k

theorem State.formatSweep_keysOk (f : Formatting) (n : Nat) : State.keysOk (State.formatSweep s cmd f n) := by
  unfold State.formatSweep
  split
  · exact State.claimStep_keysOk_of_empty work empty cmd _ _
  · exact State.claimStep_keysOk_of_empty work empty cmd _ _

theorem State.formatErased_keysOk (f : Formatting) (g : Frame) (verified : Bool) :
    State.keysOk (State.formatErased s cmd f g verified) := by
  unfold State.formatErased
  dsimp only
  split
  · split
    · exact State.claimStep_keysOk_of_empty work empty cmd _ _
    · exact State.formatSweep_keysOk work empty cmd _ _
  · split
    · exact State.formatSweep_keysOk work empty cmd _ _
    · exact State.claimStep_keysOk_of_empty work empty cmd _ _

theorem State.formatMarked_keysOk (f : Formatting) (g : Frame) (verified : Bool) :
    State.keysOk (State.formatMarked s cmd f g verified) := by
  unfold State.formatMarked
  split
  · exact State.formatSweep_keysOk (s := State.setPools s { s.pools with bad := insertFrame g s.pools.bad }) work empty cmd _ _
  · exact State.formatSweep_keysOk work empty cmd _ _

omit work in
/-- A mount that begins on an empty index (R146). -/
theorem State.beginMount_keysOk : State.keysOk (State.beginMount s) := by
  simp [State.keysOk, State.indexOk, State.newKey, empty, MountWork.stepOk]

omit work in
theorem State.formatWritten_keysOk (f : Formatting) (verified : Bool) :
    State.keysOk (State.formatWritten s cmd f verified) := by
  unfold State.formatWritten
  split
  · exact State.clearForRestart_keysOk s
  · exact State.beginMount_keysOk (s := State.goStep s cmd _) empty

end Format

/-! ### A report to the command in progress -/

section Report

variable {s : State} (keys : State.keysOk s) (work : s.mount.work = none) {j : Job} (hj : s.engine.job = some j)
include keys work hj

theorem State.engineRead_keysOk (f : Frame) (img : Image) : State.keysOk (State.engineRead s j f img) := by
  have off : State.OffMount s := ⟨work, keys.1⟩
  have rests := EngineStep.keysOk_of_job keys work hj
  obtain ⟨cmd, step⟩ := j
  cases step <;> dsimp only [State.engineRead]
  case lookupRead snap e => exact State.lookupRead_keysOk off cmd snap e f img
  case drawRead snap e => exact State.drawRead_keysOk off cmd snap e f img
  case drawReadBack d e => exact State.drawReadBack_keysOk off cmd d e img
  case topupRead snap e => exact State.topupRead_keysOk off cmd snap e f img
  case moveRead e => exact State.moveRead_keysOk off cmd e f img
  case revokeRead snap e => exact State.revokeRead_keysOk off cmd snap e f img
  case configureRead k => exact State.configureRead_keysOk off cmd k img
  case formatMapRead fm =>
    generalize Image.badFrames img = bad
    exact State.claimStep_keysOk_of_empty (s := State.setPools s { s.pools with bad := bad }) work (rests.empty rfl) cmd _ _
  all_goals exact keys

theorem State.engineStruck_keysOk (f : Frame) (verified : Bool) : State.keysOk (State.engineStruck s j f verified) := by
  have off : State.OffMount s := ⟨work, keys.1⟩
  have rests := EngineStep.keysOk_of_job keys work hj
  obtain ⟨cmd, step⟩ := j
  cases step <;> dsimp only [State.engineStruck]
  case drawStrikeA d e => exact off.claimPlain_keysOk rfl rfl _ _
  case drawStrikeB d e verifiedA => exact State.drawStruckB_keysOk off cmd d e verifiedA f verified
  case takeMark g w => exact State.demandMarked_keysOk off (rests.new w rfl) cmd g verified
  case openingStrike w => split <;> exact off.claimWriting_keysOk (rests.new w rfl) rfl rfl _ _
  case bodyStrike w => split <;> exact off.claimWriting_keysOk (rests.new w rfl) rfl rfl _ _
  case liveStrike w =>
    split
    · exact State.newFrameLive_keysOk off (rests.new w rfl) cmd f
    · exact off.claimWriting_keysOk (rests.new w rfl) rfl rfl _ _
  case newFrameMark g w => exact State.newFrameReleased_keysOk off (rests.new w rfl) cmd g verified
  case movedStrike w o new => exact State.movedDone_keysOk off cmd w o new verified
  case retiredStrike e => exact State.retiredDone_keysOk off cmd e f verified
  case fallbackMark g fallback lost => exact State.fallbackMarked_keysOk off cmd fallback lost g verified
  case configureStrike k p => exact State.configureStruck_keysOk off cmd k p verified
  case purgeStrike rest moved failed => exact State.purgeStruck_keysOk off cmd f rest moved failed verified
  case formatMark g fm => exact State.formatMarked_keysOk work (rests.empty rfl) cmd fm g verified
  case formatRecord fm => exact State.formatWritten_keysOk (rests.empty rfl) cmd fm verified
  all_goals exact keys

theorem State.engineErased_keysOk (f : Frame) (verified : Bool) : State.keysOk (State.engineErased s j f verified) := by
  have off : State.OffMount s := ⟨work, keys.1⟩
  have rests := EngineStep.keysOk_of_job keys work hj
  obtain ⟨cmd, step⟩ := j
  cases step <;> dsimp only [State.engineErased]
  case takeErase w => exact State.demandErased_keysOk off (rests.new w rfl) cmd f verified
  case fallbackErase fallback lost => exact State.fallbackErased_keysOk off cmd fallback lost f verified
  case formatErase fm => exact State.formatErased_keysOk work (rests.empty rfl) cmd fm f verified
  all_goals exact keys

end Report

end Sys2Proof.Machine
end

section
/-! The keys of the index stay distinct and in order (R25) over the dispatches. -/

namespace Sys2Proof.Machine

/-- A find answers none exactly when no entry holds the key (R27). -/
theorem findEntry_eq_none_iff {index : List Entry} {key : Word} :
    findEntry index key = none ↔ ∀ e ∈ index, e.key ≠ key := by
  simp [findEntry]

/-- A part state that admits a submission is not MOUNTING (R143). -/
theorem State.part_of_admits {s : State} {code : Byte} (h : State.admits s code = true) : s.part ≠ .mounting := by
  intro mounting
  simp [State.admits, mounting] at h

theorem State.work_none_of_part {s : State} (mount : State.mountOk s) (h : s.part ≠ .mounting) : s.mount.work = none := by
  by_contra hw
  exact h (mount (Option.isSome_iff_ne_none.mpr hw))

/-- A dispatch is made outside a mount; what its first step keeps of the keys, it keeps (R143, R170). -/
theorem State.dispatch_keysOk {s : State} (mount : State.mountOk s) (keys : State.keysOk s) (code : Byte)
    {run : State → Command → State} (h : ∀ t cmd, State.OffMount t → State.keysOk (run t cmd)) :
    State.keysOk (State.dispatch s code run) := by
  unfold State.dispatch
  split
  · exact keys
  · next cmd head =>
    obtain ⟨-, -, admits, -, -⟩ := State.dispatchHead_eq_some.mp head
    exact h _ cmd ⟨State.work_none_of_part mount (State.part_of_admits admits), keys.1⟩

/-- Abandoning background work touches the array and the controller alone (R121). -/
theorem State.abandon_eq (s : State) (undone : FrameBits) :
    State.abandon s undone =
      { s with array := (State.abandon s undone).array, ctrl := (State.abandon s undone).ctrl } := by
  unfold State.abandon
  repeat' split
  all_goals rfl

section Runs

variable {s : State} (h : State.OffMount s) (cmd : Command)
include h

theorem State.runIssue_keysOk : State.keysOk (State.runIssue s cmd) := by
  unfold State.runIssue
  dsimp only
  split
  · exact h.post_keysOk cmd _
  · split
    · exact h.post_keysOk cmd _
    · exact h.post_keysOk cmd _
    · split
      · exact h.post_keysOk cmd _
      · split
        · exact h.post_keysOk cmd _
        · next absent => exact State.take_keysOk h (fun _ => findEntry_eq_none_iff.mp absent) cmd

theorem State.runLookup_keysOk : State.keysOk (State.runLookup s cmd) := by
  unfold State.runLookup
  split
  · exact h.post_keysOk cmd _
  · split
    · exact h.post_keysOk cmd _
    · exact h.claimPlain_keysOk rfl rfl cmd _

theorem State.runDraw_keysOk : State.keysOk (State.runDraw s cmd) := by
  unfold State.runDraw
  split
  · exact h.post_keysOk cmd _
  · split
    · exact h.post_keysOk cmd _
    · split
      · exact h.post_keysOk cmd _
      · exact h.claimPlain_keysOk rfl rfl cmd _

theorem State.runTopup_keysOk : State.keysOk (State.runTopup s cmd) := by
  unfold State.runTopup
  split
  · exact h.post_keysOk cmd _
  · split
    · exact h.post_keysOk cmd _
    · split
      · exact h.post_keysOk cmd _
      · exact h.claimPlain_keysOk rfl rfl cmd _

theorem State.runMove_keysOk : State.keysOk (State.runMove s cmd) := by
  unfold State.runMove
  split
  · exact h.post_keysOk cmd _
  · split
    · exact h.post_keysOk cmd _
    · exact h.claimPlain_keysOk rfl rfl cmd _

theorem State.runRevoke_keysOk : State.keysOk (State.runRevoke s cmd) := by
  unfold State.runRevoke
  split
  · exact h.post_keysOk cmd _
  · exact h.claimPlain_keysOk rfl rfl cmd _

theorem State.runConfigureClass_keysOk : State.keysOk (State.runConfigureClass s cmd) := by
  unfold State.runConfigureClass
  dsimp only
  split
  · exact h.post_keysOk cmd _
  · split
    · exact h.claimPlain_keysOk rfl rfl cmd _
    · exact h.post_keysOk cmd _
    · exact h.post_keysOk cmd _

/-- FORMAT empties the index (R159). -/
theorem State.runFormat_keysOk (undone : FrameBits) : State.keysOk (State.runFormat undone s cmd) := by
  have work : (State.enterFormatting s undone).mount.work = none := by
    rw [State.enterFormatting, State.abandon_eq]
    exact h.work
  unfold State.runFormat
  dsimp only
  split <;> exact State.claimStep_keysOk_of_empty work rfl cmd _ _

end Runs

end Sys2Proof.Machine
end

section
/-! The keys of the index stay distinct and in order (R25) while a mount goes on: its scan (R149), the resolution of candidates
that share a key (R154, R155) and its walk (R156). -/

namespace Sys2Proof.Machine

/-! ### The frame the foreground works on -/

/-- The frame of a claim; a demand claim names none. -/
def Claim.frame : Claim → Option Frame
  | .read f => some f
  | .strike f _ => some f
  | .erase f => some f
  | .demand => none

/-- The frame of an operation. -/
def Op.frame : Op → Frame
  | .read f => f
  | .strike f _ _ => f
  | .erase _ e _ => e.frame

theorem Controller.foregroundFrame_of_foreground {c : Controller} {op : Op} (h : c.op = some op)
    (foreground : Op.isBackground op = false) : Controller.foregroundFrame c = some (Op.frame op) := by
  cases op with
  | read f => simp [Controller.foregroundFrame, h, Op.frame]
  | strike f claimant what =>
    cases claimant <;> simp_all [Controller.foregroundFrame, Op.frame, Op.isBackground]
  | erase claimant e since =>
    cases claimant <;> simp_all [Controller.foregroundFrame, Op.frame, Op.isBackground]

theorem Controller.foregroundFrame_of_idle {c : Controller} (h : c.op = none) :
    Controller.foregroundFrame c = c.waiting.bind Claim.frame := by
  cases hw : c.waiting with
  | none => simp [Controller.foregroundFrame, h, hw]
  | some k => cases k <;> simp [Controller.foregroundFrame, h, hw, Claim.frame]

theorem Controller.foregroundFrame_of_background {c : Controller} {op : Op} (h : c.op = some op)
    (background : Op.isBackground op = true) : Controller.foregroundFrame c = c.waiting.bind Claim.frame := by
  rw [← Controller.foregroundFrame_of_idle (c := { c with op := none }) rfl]
  cases op with
  | read f => simp [Op.isBackground] at background
  | strike f claimant what =>
    obtain rfl : claimant = .background := by simpa [Op.isBackground] using background
    simp only [Controller.foregroundFrame, h]
    split <;> simp_all
  | erase claimant e since =>
    obtain rfl : claimant = .background := by simpa [Op.isBackground] using background
    simp only [Controller.foregroundFrame, h]
    split <;> simp_all

/-- A claim made of an idle controller is of the frame it names. -/
theorem Controller.foregroundFrame_claim {c : Controller} (h : c.op = none) (k : Claim) :
    Controller.foregroundFrame (Controller.claim c k) = Claim.frame k := by
  rw [Controller.claim_of_idle h]
  cases k <;> rfl

/-! ### What the keys depend on -/

theorem MountWork.stepOk_of_eq {w : MountWork} {s t : State} (h : MountWork.stepOk w s) (index : t.index = s.index)
    (fg : ∀ f ∈ Controller.foregroundFrame t.ctrl, f ∈ Controller.foregroundFrame s.ctrl) : MountWork.stepOk w t := by
  unfold MountWork.stepOk at h ⊢
  split <;> simp_all [MountWork.newKeys, State.newKey]

/-- The keys rest on the index, the command in progress, the mount, and during a mount on the foreground's frame. -/
theorem State.keysOk_of_eq {s t : State} (keys : State.keysOk s) (index : t.index = s.index)
    (job : t.engine.job = s.engine.job) (work : t.mount.work = s.mount.work)
    (fg : s.mount.work ≠ none →
      ∀ f ∈ Controller.foregroundFrame t.ctrl, f ∈ Controller.foregroundFrame s.ctrl) : State.keysOk t := by
  obtain ⟨ordered, jobs, mount⟩ := keys
  simp only [State.keysOk, State.indexOk, State.newKey, index, job, work]
  refine ⟨ordered, jobs, fun w hw => ?_⟩
  obtain ⟨empty, ascending, own, rests⟩ := mount w hw
  exact ⟨empty, ascending, own, MountWork.stepOk_of_eq rests index (fg (by simp [Option.mem_def.mp hw]))⟩

/-- With the keys in order the mount in progress has what its step rests on. -/
theorem MountWork.stepOk_of_work {s : State} (keys : State.keysOk s) {w : MountWork} (hw : s.mount.work = some w) :
    MountWork.stepOk w s :=
  have ⟨_, _, mount⟩ := keys
  have ⟨_, _, _, rests⟩ := mount w hw
  rests

theorem State.LinkPortOnly.keysOk {s t : State} (h : State.LinkPortOnly s t) (keys : State.keysOk s) : State.keysOk t :=
  State.keysOk_of_eq keys h.index h.job (by rw [h.mount]) (by simp [h.ctrl])

/-! ### A mount goes on with the frames scanned so far -/

/-- A mount may claim: nothing progresses, the index is empty (R26, R146), the frames scanned so far ascend and each candidate
stands in its own frame. -/
structure State.Scanning (t : State) (scanned : List (Frame × Placement)) : Prop where
  idle : t.ctrl.op = none
  empty : t.index = []
  ascending : (scanned.map fun q => q.1).Pairwise (· < ·)
  own : ∀ q ∈ scanned, ∀ c, q.2 = .candidate c → c.frame = q.1

namespace State.Scanning

variable {t : State} {scanned : List (Frame × Placement)}

theorem setReport (h : State.Scanning t scanned) (r : MountReport) : State.Scanning (State.setReport t r) scanned :=
  ⟨h.idle, h.empty, h.ascending, h.own⟩

theorem setPools (h : State.Scanning t scanned) (p : FramePools) : State.Scanning (State.setPools t p) scanned :=
  ⟨h.idle, h.empty, h.ascending, h.own⟩

theorem setPolicies (h : State.Scanning t scanned) (policies : Vector ClassStatus 16) (holds : Vector Bool 16) :
    State.Scanning { t with policies := policies, engine := { t.engine with holds := holds } } scanned :=
  ⟨h.idle, h.empty, h.ascending, h.own⟩

/-- The mount goes on to a step whose claim is of the frame `f`. -/
theorem mountClaim_keysOk {w : MountWork} (h : State.Scanning t w.scanned) {f : Frame} {k : Claim} {step : MountStep}
    (frame : Claim.frame k = some f)
    (rests : ∀ s : State, Controller.foregroundFrame s.ctrl = some f → MountWork.stepOk { w with step := step } s) :
    State.keysOk (State.mountClaim t { w with step := step } k) := by
  have rests := rests (State.mountClaim t { w with step := step } k)
    ((Controller.foregroundFrame_claim h.idle k).trans frame)
  simpa [State.keysOk, State.indexOk, State.newKey, h.empty, rests, h.ascending] using h.own

/-- A scanned frame is placed after those below it. -/
theorem placed {w : MountWork} (h : State.Scanning t w.scanned) {f : Frame} (below : ∀ q ∈ w.scanned, q.1 < f)
    {p : Placement} (own : ∀ c, p = .candidate c → c.frame = f) :
    State.Scanning t (MountWork.placed w f p).scanned := by
  refine ⟨h.idle, h.empty, ?_, ?_⟩
  · simpa [MountWork.placed, List.pairwise_append, h.ascending] using fun g q hq => below (g, q) hq
  · intro q hq c hc
    rcases List.mem_append.mp hq with hq | hq
    · exact h.own q hq c hc
    · obtain rfl := List.mem_singleton.mp hq
      exact own c hc

end State.Scanning

theorem MountWork.map_fst_replaced (w : MountWork) (f : Frame) (p : Placement) :
    ((MountWork.replaced w f p).scanned.map fun q => q.1) = w.scanned.map fun q => q.1 := by
  simp only [MountWork.replaced, List.map_map]
  refine List.map_congr_left fun q _ => ?_
  by_cases hq : q.1 = f <;> simp [hq]

theorem MountWork.mem_replaced {w : MountWork} {f : Frame} {p : Placement} {q : Frame × Placement}
    (h : q ∈ (MountWork.replaced w f p).scanned) : q = (f, p) ∨ q ∈ w.scanned ∧ q.1 ≠ f := by
  obtain ⟨r, hr, rfl⟩ := List.mem_map.mp h
  by_cases hf : r.1 = f <;> simp [hf, hr]

theorem MountWork.mem_candidates {w : MountWork} {c : Candidate} :
    c ∈ MountWork.candidates w ↔ ∃ q ∈ w.scanned, q.2 = .candidate c := by
  simp only [MountWork.candidates, List.mem_filterMap]
  refine exists_congr fun q => and_congr_right fun _ => ?_
  cases q.2 <;> simp

/-- The candidates of a scan stand in the order of their frames. -/
theorem State.Scanning.candidates {t : State} {w : MountWork} (h : State.Scanning t w.scanned) :
    (MountWork.candidates w).Pairwise fun c d => c.frame < d.frame := by
  have own : ∀ q ∈ w.scanned, ∀ c, q.2 = .candidate c → c.frame = q.1 := h.own
  refine List.pairwise_filterMap.mpr ((List.pairwise_map.mp h.ascending).imp_of_mem ?_)
  intro q r hq hr hlt c hc d hd
  have hqc : q.2 = .candidate c := by revert hc; cases q.2 <;> simp
  have hrd : r.2 = .candidate d := by revert hd; cases r.2 <;> simp
  rwa [own q hq c hqc, own r hr d hrd]

/-! ### The resolution of candidates that share a key (R154, R155) -/

/-- The resolution of the candidates left (`todo`) against the winners so far. -/
structure Resolves (scanned : List (Frame × Placement)) (todo winners : List Candidate) : Prop where
  keys : (winners.map fun c => c.key).Nodup
  frames : ((todo ++ winners).map fun c => c.frame).Nodup
  places : ∀ c ∈ todo ++ winners, c.frame ∈ scanned.map fun q => q.1
  complete : ∀ q ∈ scanned, ∀ c, q.2 = .candidate c → c ∈ todo ++ winners

/-- A resolution begins with no winner. -/
theorem State.Scanning.resolves {t : State} {w : MountWork} (h : State.Scanning t w.scanned) :
    Resolves w.scanned (MountWork.candidates w) [] where
  keys := List.nodup_nil
  frames := by
    rw [List.append_nil]
    exact List.pairwise_map.mpr (h.candidates.imp fun hlt => Fin.ne_of_lt hlt)
  places := by
    intro c hc
    rw [List.append_nil] at hc
    obtain ⟨q, hq, hc⟩ := MountWork.mem_candidates.mp hc
    exact h.own q hq c hc ▸ List.mem_map_of_mem hq
  complete := by
    intro q hq c hc
    rw [List.append_nil]
    exact MountWork.mem_candidates.mpr ⟨q, hq, hc⟩

/-- A resolution depends on the candidates left and the winners together, whatever their order. -/
theorem Resolves.perm {scanned : List (Frame × Placement)} {todo winners todo' winners' : List Candidate}
    (h : Resolves scanned todo winners) (keys : (winners'.map fun c => c.key).Nodup)
    (same : (todo ++ winners).Perm (todo' ++ winners')) : Resolves scanned todo' winners' where
  keys := keys
  frames := (same.map _).nodup h.frames
  places := fun c hc => h.places c (same.mem_iff.mpr hc)
  complete := fun q hq c hc => same.mem_iff.mp (h.complete q hq c hc)

/-- A candidate whose key has no winner yet becomes it. -/
theorem Resolves.next {scanned : List (Frame × Placement)} {q : Candidate} {todo winners : List Candidate}
    (h : Resolves scanned (q :: todo) winners) (new : ∀ p ∈ winners, p.key ≠ q.key) :
    Resolves scanned todo (winners ++ [q]) := by
  refine h.perm ?_ ?_
  · simpa [List.nodup_append, h.keys] using new
  · rw [← List.append_assoc]
    exact (List.perm_append_singleton q (todo ++ winners)).symm

/-- Among winners of distinct keys the winner of a pair takes the place of the one that held its key. -/
theorem map_winner {left right : List Candidate} {p q win : Candidate} (keys : ((left ++ p :: right).map fun c => c.key).Nodup)
    (hk : p.key = q.key) :
    ((left ++ p :: right).map fun c => if c.key = q.key then win else c) = left ++ win :: right := by
  simp only [List.map_append, List.map_cons, List.nodup_append, List.nodup_cons, List.mem_map, List.mem_cons] at keys
  obtain ⟨-, ⟨hright, -⟩, hleft⟩ := keys
  have other : ∀ d ∈ left ++ right, d.key ≠ q.key := by
    intro d hd hdq
    rcases List.mem_append.mp hd with hd | hd
    · exact hleft _ ⟨d, hd, rfl⟩ _ (.inl rfl) (hdq.trans hk.symm)
    · exact hright ⟨d, hd, hdq.trans hk.symm⟩
  have same : ∀ l : List Candidate, (∀ d ∈ l, d.key ≠ q.key) →
      (l.map fun c => if c.key = q.key then win else c) = l :=
    fun l hl => (List.map_congr_left fun d hd => if_neg (hl d hd)).trans (List.map_id l)
  simp [hk, same left fun d hd => other d (List.mem_append_left _ hd),
    same right fun d hd => other d (List.mem_append_right _ hd)]

/-- The loser of a pair leaves the resolution, the winner stands for their key (R155). -/
theorem Resolves.pair {t : State} {scanned : List (Frame × Placement)} (scan : State.Scanning t scanned) {p q : Candidate}
    {todo winners : List Candidate} (h : Resolves scanned (q :: todo) winners) (hp : p ∈ winners) (hk : p.key = q.key)
    (b : Bool) :
    resolving scanned todo (winners.map fun c => if c.key = q.key then if b then p else q else c)
      (if b then q else p).frame := by
  obtain ⟨left, right, rfl⟩ := List.append_of_mem hp
  rw [map_winner h.keys hk]
  have keys : ((left ++ (if b then p else q) :: right).map fun c => c.key).Nodup := by
    have hkeys := h.keys
    cases b <;> simpa [hk] using hkeys
  have same : (q :: todo ++ (left ++ p :: right)).Perm
      ((if b then q else p) :: (todo ++ (left ++ (if b then p else q) :: right))) := by
    cases b
    · refine List.perm_iff_count.mpr fun c => ?_
      simp only [List.count_append, List.count_cons, Bool.false_eq_true, if_false]
      omega
    · exact List.Perm.refl _
  have after := h.perm (todo' := (if b then q else p) :: todo) keys (by simpa using same)
  refine ⟨keys, after.frames, ?_, ?_⟩
  · intro f hf
    obtain ⟨c, hc, rfl⟩ := List.mem_map.mp (show f ∈ ((if b then q else p) :: (todo ++ _)).map _ from hf)
    exact after.places c hc
  · intro r hr c hc
    rcases List.mem_cons.mp (after.complete r hr c hc) with rfl | hc'
    · exact .inl (scan.own r hr _ hc).symm
    · exact .inr (List.mem_append.mp hc')

end Sys2Proof.Machine
end

section
/-! The keys of the index stay distinct and in order (R25) over the completions a mount waits for and over its walk. -/

namespace Sys2Proof.Machine

/-! ### The scan and the resolution go on -/

/-- The winners that remain are the walk's candidates, and their keys are distinct (R155, R156). -/
theorem Resolves.newKeys {t s : State} {w : MountWork} (scan : State.Scanning t w.scanned) {winners : List Candidate}
    (h : Resolves w.scanned [] winners) (empty : s.index = []) : MountWork.newKeys w s := by
  have won : ∀ c ∈ MountWork.candidates w, c ∈ winners := fun c hc =>
    have ⟨q, hq, hqc⟩ := MountWork.mem_candidates.mp hc
    h.complete q hq c hqc
  refine ⟨?_, by simp [State.newKey, empty]⟩
  have distinct : (MountWork.candidates w).Nodup :=
    scan.candidates.imp fun hlt => ne_of_apply_ne Candidate.frame (Fin.ne_of_lt hlt)
  exact distinct.map_on fun c hc d hd => List.inj_on_of_nodup_map h.keys (won c hc) (won d hd)

theorem State.Scanning.beginWalk_keysOk {t : State} {w : MountWork} (scan : State.Scanning t w.scanned)
    {winners : List Candidate} (h : Resolves w.scanned [] winners) : State.keysOk (State.beginWalk t w) := by
  have keys : MountWork.stepOk { w with step := .walk } (State.beginWalk t w) := h.newKeys scan scan.empty
  simpa [State.keysOk, State.indexOk, State.newKey, scan.empty, scan.ascending, keys] using scan.own

theorem State.Scanning.resolve_keysOk {t : State} {w : MountWork} (scan : State.Scanning t w.scanned)
    {todo winners : List Candidate} (h : Resolves w.scanned todo winners) :
    State.keysOk (State.resolve t w todo winners) := by
  induction todo generalizing winners with
  | nil => exact scan.beginWalk_keysOk h
  | cons q todo ih =>
    unfold State.resolve
    split
    · next none =>
      exact ih (h.next fun p hp => by simpa using List.find?_eq_none.mp none p hp)
    · next p found =>
      have pair :
          MountNext.restsOn w.scanned (if firstWins p q then q else p).frame
            (.resolve todo (winners.map fun c => if c.key = q.key then if firstWins p q then p else q else c)) :=
        h.pair scan (List.mem_of_find?_eq_some found) (by simpa using List.find?_some found) (firstWins p q)
      refine State.Scanning.mountClaim_keysOk (scan.setReport _) rfl fun s fg => ?_
      simpa only [MountWork.stepOk, fg, Option.mem_some_iff, forall_eq'] using pair

theorem State.Scanning.scanFrom_keysOk {t : State} {w : MountWork} (scan : State.Scanning t w.scanned) {n : Nat}
    (three : 3 ≤ n) (below : ∀ q ∈ w.scanned, q.1.val < n) : State.keysOk (State.scanFrom t w n) := by
  unfold State.scanFrom
  split
  · next f found =>
    have from_n := (nextFrame_eq_some found).1
    have rests : MountNext.restsOn w.scanned f .scan :=
      ⟨Nat.le_trans three from_n, fun q hq => Fin.lt_def.mpr (Nat.lt_of_lt_of_le (below q hq) from_n)⟩
    refine scan.mountClaim_keysOk rfl fun s fg => ?_
    simpa only [MountWork.stepOk, fg, Option.mem_some_iff, forall_eq'] using rests
  · exact scan.resolve_keysOk scan.resolves

/-- What a mount's going on after frame `f` needs once the frame is placed or dropped. -/
def MountNext.Ready (scanned : List (Frame × Placement)) (f : Frame) : MountNext → Prop
  | .scan => 3 ≤ f.val ∧ ∀ q ∈ scanned, q.1 ≤ f
  | .resolve todo winners => Resolves scanned todo winners

theorem State.Scanning.mountGoesOn_keysOk {t : State} {w : MountWork} (scan : State.Scanning t w.scanned) {f : Frame}
    {next : MountNext} (ready : MountNext.Ready w.scanned f next) : State.keysOk (State.mountGoesOn t w f next) := by
  cases next with
  | scan =>
    obtain ⟨three, below⟩ := ready
    exact scan.scanFrom_keysOk (Nat.le_succ_of_le three) fun q hq => Nat.lt_succ_of_le (below q hq)
  | resolve todo winners => exact scan.resolve_keysOk ready

/-- The loser of a pair ends in a place of its own, or in the bad-frame map, and the others are resolved on (R155). -/
theorem Resolves.of_resolving {scanned scanned' : List (Frame × Placement)} {todo winners : List Candidate} {f : Frame}
    (h : resolving scanned todo winners f)
    (places : ∀ g, g ∈ scanned.map (fun q => q.1) → g ≠ f → g ∈ scanned'.map fun q => q.1)
    (others : ∀ q ∈ scanned', ∀ c, q.2 = .candidate c → q ∈ scanned ∧ q.1 ≠ f) : Resolves scanned' todo winners := by
  obtain ⟨keys, frames, scannedAll, complete⟩ := h
  obtain ⟨loser, frames⟩ := List.nodup_cons.mp frames
  refine ⟨keys, frames, fun c hc => ?_, fun q hq c hqc => ?_⟩
  · have hmem : c.frame ∈ (todo ++ winners).map fun c => c.frame := List.mem_map_of_mem hc
    exact places _ (scannedAll _ (List.mem_cons_of_mem _ hmem)) fun same => loser (same ▸ hmem)
  · obtain ⟨hq, hne⟩ := others q hq c hqc
    exact List.mem_append.mpr ((complete q hq c hqc).resolve_left hne)

theorem State.Scanning.replaced {t : State} {w : MountWork} (scan : State.Scanning t w.scanned) (f : Frame) {p : Placement}
    (plain : ∀ c, p ≠ .candidate c) : State.Scanning t (MountWork.replaced w f p).scanned where
  idle := scan.idle
  empty := scan.empty
  ascending := by rw [MountWork.map_fst_replaced]; exact scan.ascending
  own := by
    intro q hq c hc
    rcases MountWork.mem_replaced hq with rfl | ⟨hq, -⟩
    · exact absurd hc (plain c)
    · exact scan.own q hq c hc

/-- A frame that mount ended, by a strike, an erase or a mark strike, is placed and the mount goes on (R151, R152, R155). -/
theorem State.Scanning.ended_keysOk {t : State} {w : MountWork} (scan : State.Scanning t w.scanned) {f : Frame}
    {next : MountNext} (rests : MountNext.restsOn w.scanned f next) {p : Placement} (plain : ∀ c, p ≠ .candidate c) :
    State.keysOk (State.mountGoesOn t (MountWork.ended w f next p) f next) := by
  cases next with
  | scan =>
    obtain ⟨three, below⟩ := rests
    refine State.Scanning.mountGoesOn_keysOk (scan.placed below fun c hc => absurd hc (plain c)) ⟨three, fun q hq => ?_⟩
    rcases List.mem_append.mp hq with hq | hq
    · exact Fin.le_of_lt (below q hq)
    · exact (List.mem_singleton.mp hq) ▸ Fin.le_refl f
  | resolve todo winners =>
    refine State.Scanning.mountGoesOn_keysOk (scan.replaced f plain) (Resolves.of_resolving rests ?_ ?_)
    · intro g hg _
      rwa [MountWork.map_fst_replaced]
    · intro q hq c hc
      rcases MountWork.mem_replaced hq with rfl | other
      · exact absurd hc (plain c)
      · exact other

/-- A frame that mount marked bad leaves the scan, and the mount goes on (R152, R155). -/
theorem State.Scanning.dropped_keysOk {t : State} {w : MountWork} (scan : State.Scanning t w.scanned) {f : Frame}
    {next : MountNext} (rests : MountNext.restsOn w.scanned f next) :
    State.keysOk (State.mountGoesOn t (MountWork.dropped w f) f next) := by
  have kept : ∀ q ∈ (MountWork.dropped w f).scanned, q ∈ w.scanned ∧ q.1 ≠ f := fun q hq => by
    simpa [MountWork.dropped] using hq
  have scan' : State.Scanning t (MountWork.dropped w f).scanned :=
    ⟨scan.idle, scan.empty, scan.ascending.sublist (List.filter_sublist.map _), fun q hq => scan.own q (kept q hq).1⟩
  refine scan'.mountGoesOn_keysOk ?_
  cases next with
  | scan =>
    obtain ⟨three, below⟩ := rests
    exact ⟨three, fun q hq => Fin.le_of_lt (below q (kept q hq).1)⟩
  | resolve todo winners =>
    refine Resolves.of_resolving rests ?_ fun q hq _ _ => kept q hq
    intro g hg hne
    obtain ⟨q, hq, rfl⟩ := List.mem_map.mp hg
    exact List.mem_map_of_mem (List.mem_filter.mpr ⟨hq, by simpa using hne⟩)

/-! ### The completions a mount waits for -/

theorem EngineStep.mounts_iff {step : EngineStep} : EngineStep.mounts step = true ↔ ∃ f, step = .formatMount f := by
  cases step <;> simp [EngineStep.mounts]

/-- A mount ends in a part state; a FORMAT that waited for it posts its result (R162). -/
theorem State.mountEnds_keysOk {s : State} (ordered : State.indexOk s)
    (mounts : ∀ j ∈ s.engine.job, EngineStep.mounts j.step = true) (part : PartState) :
    State.keysOk (State.mountEnds s part) := by
  have off : State.OffMount
      { s with part := part, link := { s.link with mounted := true }, mount := { s.mount with work := none } } :=
    ⟨rfl, ordered⟩
  cases hj : s.engine.job with
  | none => simpa [State.mountEnds, hj] using off.keysOk (by simp [hj])
  | some j =>
    obtain ⟨cmd, step⟩ := j
    obtain ⟨f, rfl⟩ := EngineStep.mounts_iff.mp (mounts _ hj)
    simpa only [State.mountEnds, hj] using off.post_keysOk cmd _

/-- A candidate is classified in the frame it was read from (R153). -/
theorem classify_frame {f : Frame} {img : Image} {c : Candidate} (h : classify f img = .candidate c) : c.frame = f := by
  unfold classify at h
  repeat' split at h
  all_goals cases h
  all_goals rfl

section Completions

variable {t : State} {w : MountWork} (scan : State.Scanning t w.scanned) {f : Frame}
include scan

theorem State.scanned_keysOk (rests : MountNext.restsOn w.scanned f .scan) {found : Scanned}
    (own : ∀ c, found = .candidate c → c.frame = f) : State.keysOk (State.scanned t w f found) := by
  have ⟨three, below⟩ := rests
  have goesOn : ∀ {u : State} (_ : State.Scanning u w.scanned) (p : Placement) (_ : ∀ c, p = .candidate c → c.frame = f),
      State.keysOk (State.scanFrom u (MountWork.placed w f p) (f.val + 1)) := by
    intro u scan p own
    refine (scan.placed below own).scanFrom_keysOk (Nat.le_succ_of_le three) fun q hq => ?_
    rcases List.mem_append.mp hq with hq | hq
    · exact Nat.lt_succ_of_lt (below q hq)
    · exact (List.mem_singleton.mp hq) ▸ Nat.lt_succ_self f.val
  cases found with
  | free => exact goesOn scan _ (by simp)
  | dirty => exact goesOn (scan.setReport _) _ (by simp)
  | abandoned =>
    refine State.Scanning.mountClaim_keysOk (scan.setReport _) rfl fun s fg => ?_
    simpa only [MountWork.stepOk, fg, Option.mem_some_iff, forall_eq'] using rests
  | orphan => exact goesOn (scan.setReport _) _ (by simp)
  | superseded => exact goesOn scan _ (by simp)
  | ended => exact goesOn scan _ (by simp)
  | candidate c => exact goesOn scan _ (by simpa using own)

theorem State.scanRead_keysOk (rests : MountNext.restsOn w.scanned f .scan) (img : Image) :
    State.keysOk (State.scanRead t w f img) := by
  have own : ∀ c, classify f img = .candidate c → c.frame = f := fun c => classify_frame
  have counted : State.Scanning
      (if irregular (img 0) then State.setReport t { t.mount.report with irregular := t.mount.report.irregular + 1 }
        else t) w.scanned := by
    split
    · exact scan.setReport _
    · exact scan
  unfold State.scanRead
  dsimp only
  split
  · exact State.scanned_keysOk counted rests own
  · refine State.Scanning.mountClaim_keysOk counted rfl fun s fg => ?_
    simpa only [MountWork.stepOk, fg, Option.mem_some_iff, forall_eq'] using ⟨rests, own⟩

theorem State.mountFallback_keysOk {next : MountNext} (rests : MountNext.restsOn w.scanned f next) :
    State.keysOk (State.mountFallback t w f next) := by
  refine State.Scanning.mountClaim_keysOk scan rfl fun s fg => ?_
  simpa only [MountWork.stepOk, fg, Option.mem_some_iff, forall_eq'] using rests

theorem State.mountFormat_keysOk (mounts : ∀ j ∈ t.engine.job, EngineStep.mounts j.step = true)
    (unscanned : w.scanned = []) (img : Image) : State.keysOk (State.mountFormat t w img) := by
  have ends := State.mountEnds_keysOk (s := State.setPools t { t.pools with bad := [] })
    (by simp [State.indexOk, scan.empty]) mounts
  unfold State.mountFormat
  split
  · exact ends _
  · split
    · exact State.Scanning.mountClaim_keysOk ⟨scan.idle, scan.empty, scan.ascending, scan.own⟩ rfl fun _ _ => unscanned
    · exact ends _

theorem State.mountMap_keysOk (unscanned : w.scanned = []) (img : Image) :
    State.keysOk (State.mountMap t w img) :=
  State.Scanning.mountClaim_keysOk (scan.setPools _) rfl fun _ _ => unscanned

theorem State.mountPolicies_keysOk (unscanned : w.scanned = []) (img : Image) :
    State.keysOk (State.mountPolicies t w img) :=
  (scan.setPolicies _ _).scanFrom_keysOk (Nat.le_refl 3) (by simp [unscanned])

end Completions

/-! ### A report to the mount -/

/-- From `s` to `t` the operation in progress ended, or none progressed; the claims, the commands, the index and the mount stand
as they were. -/
structure State.OpEnded (s t : State) : Prop where
  index : t.index = s.index
  engine : t.engine = s.engine
  mount : t.mount = s.mount
  idle : t.ctrl.op = none
  waiting : t.ctrl.waiting = s.ctrl.waiting

/-- While nothing progresses the foreground works on the frame of its waiting claim, which waited for a background operation
(R107, R114). -/
theorem Controller.foregroundFrame_of_ended {c d : Controller} (idle : d.op = none) (waiting : d.waiting = c.waiting)
    (waits : c.waiting ≠ none → Controller.backgroundBusy c = true) {f : Frame} (h : f ∈ Controller.foregroundFrame d) :
    f ∈ Controller.foregroundFrame c := by
  rw [Controller.foregroundFrame_of_idle idle, waiting] at h
  have busy : Controller.backgroundBusy c = true := waits (by rintro none; simp [none] at h)
  cases ho : c.op with
  | none => simp [Controller.backgroundBusy, ho] at busy
  | some op =>
    rw [Controller.foregroundFrame_of_background ho (by simpa [Controller.backgroundBusy, ho] using busy)]
    exact h

section Report

variable {s t : State} (work : State.workOk s) (keys : State.keysOk s) (ended : State.OpEnded s t)
include work keys ended

theorem State.OpEnded.keysOk : State.keysOk t := by
  obtain ⟨-, -, waits, -⟩ := work
  exact State.keysOk_of_eq keys ended.index (by rw [ended.engine]) (by rw [ended.mount]) fun _ f =>
    Controller.foregroundFrame_of_ended ended.idle ended.waiting waits

omit keys in
/-- A command in progress during a mount is the FORMAT that waits for it (R108). -/
theorem State.OpEnded.mounts : ∀ w ∈ t.mount.work, ∀ j ∈ t.engine.job, EngineStep.mounts j.step = true := by
  obtain ⟨-, -, -, -, -, -, mount⟩ := work
  rw [ended.mount, ended.engine]
  exact fun w hw => (mount w hw).1

variable {w : MountWork} (hw : s.mount.work = some w)
include hw

omit work in
theorem State.OpEnded.scanning (scans : w.step ≠ .walk) : State.Scanning t w.scanned := by
  obtain ⟨-, -, mount⟩ := keys
  obtain ⟨empty, ascending, own, -⟩ := mount w hw
  exact ⟨ended.idle, ended.index.trans (empty scans), ascending, own⟩

variable {f : Frame} (fg : Controller.foregroundFrame s.ctrl = some f)
include fg

theorem State.mountRead_keysOk (img : Image) : State.keysOk (State.mountRead t w f img) := by
  have scan := State.OpEnded.scanning keys ended hw
  have rests := MountWork.stepOk_of_work keys hw
  have mounts := State.OpEnded.mounts work ended w (ended.mount ▸ hw)
  obtain ⟨step, scanned⟩ := w
  cases step <;> simp only [MountWork.stepOk, fg, Option.mem_some_iff, forall_eq'] at rests <;>
    dsimp only [State.mountRead]
  case readFormat => exact State.mountFormat_keysOk (scan nofun) mounts rests img
  case readMap => exact State.mountMap_keysOk (scan nofun) rests img
  case readPolicies => exact State.mountPolicies_keysOk (scan nofun) rests img
  case scanRead => exact State.scanRead_keysOk (scan nofun) rests img
  all_goals exact State.OpEnded.keysOk work keys ended

theorem State.mountStruck_keysOk (verified : Bool) : State.keysOk (State.mountStruck t w f verified) := by
  have scan := State.OpEnded.scanning keys ended hw
  have rests := MountWork.stepOk_of_work keys hw
  obtain ⟨step, scanned⟩ := w
  cases step <;> simp only [MountWork.stepOk, fg, Option.mem_some_iff, forall_eq'] at rests <;>
    dsimp only [State.mountStruck]
  case regularise found =>
    obtain ⟨rests, own⟩ := rests
    refine State.scanned_keysOk (scan nofun) rests fun c hc => ?_
    cases found <;> simp only [Scanned.regularised, reduceCtorEq, Scanned.candidate.injEq] at hc
    next d => exact hc ▸ (by split <;> exact own d rfl)
  case retire =>
    split
    · exact (scan nofun).ended_keysOk rests (by simp)
    · exact State.mountFallback_keysOk (scan nofun) rests
  case movedStrike next =>
    split
    · exact (scan nofun).ended_keysOk rests (by simp)
    · exact State.mountFallback_keysOk (scan nofun) rests
  case fallbackMark g next =>
    split
    · exact ((scan nofun).setPools _).dropped_keysOk rests
    · exact (scan nofun).ended_keysOk rests (by simp)
  all_goals exact State.OpEnded.keysOk work keys ended

theorem State.mountErased_keysOk (verified : Bool) : State.keysOk (State.mountErased t w f verified) := by
  have scan := State.OpEnded.scanning keys ended hw
  have rests := MountWork.stepOk_of_work keys hw
  obtain ⟨step, scanned⟩ := w
  cases step <;> simp only [MountWork.stepOk, fg, Option.mem_some_iff, forall_eq'] at rests <;>
    dsimp only [State.mountErased]
  case fallbackErase next =>
    split
    · exact (scan nofun).ended_keysOk rests (by simp)
    · exact (scan nofun).mountClaim_keysOk rfl fun _ _ => rests
  all_goals exact State.OpEnded.keysOk work keys ended

omit hw in
theorem State.reportRead_keysOk (img : Image) : State.keysOk (State.reportRead t f img) := by
  have keysT := State.OpEnded.keysOk work keys ended
  unfold State.reportRead
  split
  · next w _ hw => exact State.mountRead_keysOk work keys ended (ended.mount ▸ hw) fg img
  · next hw hj => exact State.engineRead_keysOk keysT hw hj f img
  · exact keysT

omit hw in
theorem State.reportStrike_keysOk (verified : Bool) : State.keysOk (State.reportStrike t f verified) := by
  have keysT := State.OpEnded.keysOk work keys ended
  unfold State.reportStrike
  split
  · next w _ hw => exact State.mountStruck_keysOk work keys ended (ended.mount ▸ hw) fg verified
  · next hw hj => exact State.engineStruck_keysOk keysT hw hj f verified
  · exact keysT

omit hw in
theorem State.reportErase_keysOk (verified : Bool) : State.keysOk (State.reportErase t f verified) := by
  have keysT := State.OpEnded.keysOk work keys ended
  unfold State.reportErase
  split
  · next w _ hw => exact State.mountErased_keysOk work keys ended (ended.mount ▸ hw) fg verified
  · next hw hj => exact State.engineErased_keysOk keysT hw hj f verified
  · exact keysT

end Report

/-! ### The walk (R156) -/

theorem State.walk_keysOk {t : State} {w : MountWork} (hw : t.mount.work = some w) (walk : w.step = .walk)
    (ordered : State.indexOk t) (jobs : ∀ j ∈ t.engine.job, EngineStep.mounts j.step = true)
    (ascending : (w.scanned.map fun q => q.1).Pairwise (· < ·))
    (own : ∀ q ∈ w.scanned, ∀ c, q.2 = .candidate c → c.frame = q.1) (new : MountWork.newKeys w t) : State.keysOk t := by
  refine ⟨ordered, fun j hj => ?_, fun v hv => ?_⟩
  · obtain ⟨f, hf⟩ := EngineStep.mounts_iff.mp (jobs j hj)
    simp [hf, EngineStep.writing, hw]
  · obtain rfl : w = v := Option.some.inj (hw.symm.trans hv)
    exact ⟨absurd walk, ascending, own, by simpa only [MountWork.stepOk, walk] using new⟩

/-- A candidate's key is new to the index, and its entry inserted leaves the candidates behind it new (R29). -/
theorem MountWork.newKeys_of_insert {f : Frame} {c : Candidate} {rest : List (Frame × Placement)} {s t : State}
    (new : MountWork.newKeys { step := .walk, scanned := (f, .candidate c) :: rest } s) {e : Entry} (key : e.key = c.key)
    (index : t.index = insertEntry e s.index) :
    (∀ d ∈ s.index, d.key ≠ e.key) ∧ MountWork.newKeys { step := .walk, scanned := rest } t := by
  obtain ⟨keys, absent⟩ := new
  obtain ⟨fresh, keys⟩ := List.nodup_cons.mp keys
  refine ⟨key ▸ absent c List.mem_cons_self, keys, fun d hd a ha => ?_⟩
  rw [index] at ha
  rcases mem_insertEntry.mp ha with rfl | ha
  · exact fun same => fresh (List.mem_map.mpr ⟨d, hd, (key.symm.trans same).symm⟩)
  · exact absent d (List.mem_cons_of_mem _ hd) a ha

/-- The walk goes on by one frame, or ends (R156, R29). -/
theorem State.walkOn_keysOk {s : State} {w : MountWork} (keys : State.keysOk s) (hw : s.mount.work = some w)
    (walk : w.step = .walk) (jobs : ∀ j ∈ s.engine.job, EngineStep.mounts j.step = true) :
    State.keysOk (State.walkOn s w) := by
  obtain ⟨ordered, -, mount⟩ := keys
  obtain ⟨-, ascending, own, new⟩ := mount w hw
  obtain ⟨step, scanned⟩ := w
  obtain rfl : step = .walk := walk
  cases scanned with
  | nil => exact State.mountEnds_keysOk ordered jobs .ready
  | cons q rest =>
    have ascends := (List.pairwise_cons.mp ascending).2
    have owns : ∀ r ∈ rest, ∀ c, r.2 = .candidate c → c.frame = r.1 := fun r hr => own r (List.mem_cons_of_mem q hr)
    obtain ⟨f, place⟩ := q
    cases place with
    | free => exact State.walk_keysOk rfl rfl ordered jobs ascends owns new
    | reclaim => exact State.walk_keysOk rfl rfl ordered jobs ascends owns new
    | quarantine => exact State.walk_keysOk rfl rfl ordered jobs ascends owns new
    | candidate c =>
      obtain ⟨frame, marker, key, gen, _ | ⟨cls, units⟩⟩ := c
      all_goals
        obtain ⟨absent, news⟩ := MountWork.newKeys_of_insert
          (t := State.setIndex s (insertEntry { key := key, frame := f, gen := gen, cls := _ } s.index)) new rfl rfl
        exact State.walk_keysOk rfl rfl (pairwise_insertEntry ordered absent) jobs ascends owns news

end Sys2Proof.Machine
end

section
/-! The keys of the index stay distinct and in order (R25) over every step. -/

namespace Sys2Proof.Machine

/-! ### The waiting claim and the operation that goes on -/

/-- The waiting claim is served in the foreground's frame; a demand claim goes on with its take (R114, R131). -/
theorem State.serveWaiting_keysOk {s : State} (keys : State.keysOk s) (idle : s.ctrl.op = none)
    (mounts : ∀ w ∈ s.mount.work, ∀ j ∈ s.engine.job, EngineStep.mounts j.step = true) :
    State.keysOk (State.serveWaiting s) := by
  have frame := Controller.foregroundFrame_of_idle idle
  unfold State.serveWaiting
  split
  · exact keys
  · next waiting =>
    dsimp only
    split
    · next cmd w hj =>
      have work : s.mount.work = none := by
        by_contra hw
        obtain ⟨v, hv⟩ := Option.ne_none_iff_exists'.mp hw
        exact absurd (mounts v hv _ hj) (by simp [EngineStep.mounts])
      exact State.take_keysOk (s := { s with ctrl := { s.ctrl with waiting := none } }) ⟨work, keys.1⟩
        ((EngineStep.keysOk_of_job keys work hj).new w rfl) cmd
    · refine State.keysOk_of_eq keys rfl rfl rfl fun _ f hf => ?_
      rw [Controller.foregroundFrame_of_idle (by exact idle)] at hf
      exact absurd hf (by simp)
  · next k demand waiting =>
    refine State.keysOk_of_eq keys rfl rfl rfl fun _ f hf => ?_
    rw [State.claim_ctrl, Controller.foregroundFrame_claim (by exact idle)] at hf
    rwa [frame, waiting]

/-- The operation goes on, or another of its claimant on the same frame takes its place. -/
theorem State.setOp_keysOk {s : State} (keys : State.keysOk s) {op next : Op} (h : s.ctrl.op = some op)
    (claimant : Op.isBackground next = Op.isBackground op)
    (frame : Op.isBackground op = false → Op.frame next = Op.frame op) : State.keysOk (State.setOp s next) := by
  refine State.keysOk_of_eq keys rfl rfl rfl fun _ f hf => ?_
  rw [State.setOp_ctrl] at hf
  cases background : Op.isBackground op with
  | true =>
    rw [Controller.foregroundFrame_of_background h background]
    rwa [Controller.foregroundFrame_of_background rfl (claimant.trans background)] at hf
  | false =>
    rw [Controller.foregroundFrame_of_foreground h background]
    rwa [Controller.foregroundFrame_of_foreground rfl (claimant.trans background), frame background] at hf

/-! ### The events of the array controller -/

theorem State.OpEnded.systemFailure {s t : State} (h : State.OpEnded s t) (f : Frame) (verified : Bool) :
    State.OpEnded s (State.systemFailure t f verified) := by
  unfold State.systemFailure
  split <;> exact ⟨h.index, h.engine, h.mount, h.idle, h.waiting⟩

theorem State.clearOp_opEnded (s : State) : State.OpEnded s (State.clearOp s) := ⟨rfl, rfl, rfl, rfl, rfl⟩

section Events

variable {s : State} (work : State.workOk s) (keys : State.keysOk s)
include work keys

theorem State.OpEnded.serveWaiting_keysOk {t : State} (ended : State.OpEnded s t) : State.keysOk (State.serveWaiting t) :=
  State.serveWaiting_keysOk (State.OpEnded.keysOk work keys ended) ended.idle (State.OpEnded.mounts work ended)

theorem State.OpEnded.backgroundMarked_keysOk {t : State} (ended : State.OpEnded s t) (verified : Bool) :
    State.keysOk (State.backgroundMarked t verified) := by
  refine State.OpEnded.serveWaiting_keysOk work keys ?_
  split
  · exact ended
  · exact ⟨ended.index, ended.engine, ended.mount, ended.idle, ended.waiting⟩

theorem State.readComplete_keysOk : State.keysOk (State.readComplete s) := by
  unfold State.readComplete
  split
  · next f ho =>
    exact State.reportRead_keysOk work keys (State.clearOp_opEnded s)
      (Controller.foregroundFrame_of_foreground ho rfl) _
  · exact keys

theorem State.strikeComplete_keysOk (stuck : FrameBits) : State.keysOk (State.strikeComplete s stuck) := by
  unfold State.strikeComplete
  split
  · next f claimant what ho =>
    have ended : ∀ m, State.OpEnded s (State.setArray (State.clearOp s) m) := fun _ => ⟨rfl, rfl, rfl, rfl, rfl⟩
    cases claimant with
    | foreground =>
      exact State.reportStrike_keysOk work keys ((ended _).systemFailure f _)
        (Controller.foregroundFrame_of_foreground ho rfl) _
    | background => exact State.OpEnded.backgroundMarked_keysOk work keys ((ended _).systemFailure f _) _
  · exact keys

theorem State.eraseVerified_keysOk {claimant : Claimant} {e : Erase} {since : Nat}
    (ho : s.ctrl.op = some (.erase claimant e since)) : State.keysOk (State.eraseVerified s claimant e.frame) := by
  cases claimant with
  | foreground =>
    exact State.reportErase_keysOk work keys (State.clearOp_opEnded s)
      (Controller.foregroundFrame_of_foreground ho rfl) true
  | background =>
    exact State.OpEnded.serveWaiting_keysOk (t := State.setPools (State.clearOp s) _) work keys ⟨rfl, rfl, rfl, rfl, rfl⟩

theorem State.attemptFailed_keysOk {claimant : Claimant} {e : Erase} {since : Nat}
    (ho : s.ctrl.op = some (.erase claimant e since)) : State.keysOk (State.attemptFailed s claimant e) := by
  unfold State.attemptFailed
  split
  · cases claimant with
    | foreground =>
      exact State.reportErase_keysOk work keys ((State.clearOp_opEnded s).systemFailure e.frame false)
        (Controller.foregroundFrame_of_foreground ho rfl) false
    | background => exact State.setOp_keysOk keys ho rfl nofun
  · split
    · have ended : State.OpEnded s { s with ctrl := { s.ctrl with op := none, suspended := some (Erase.retry e) } } :=
        ⟨rfl, rfl, rfl, rfl, rfl⟩
      exact State.OpEnded.serveWaiting_keysOk work keys ended
    · exact State.setOp_keysOk keys ho rfl fun _ => rfl

omit work in
theorem State.eraseGoesOn_keysOk {claimant : Claimant} {e : Erase} {since : Nat}
    (ho : s.ctrl.op = some (.erase claimant e since)) (m : Memory) (stage : Stage) (elapsed : Nat) :
    State.keysOk (State.eraseGoesOn s m claimant e since stage elapsed) :=
  State.setOp_keysOk (s := State.setArray s m) keys ho rfl fun _ => rfl

theorem State.markerRetirement_keysOk (elapsed : Nat) (stuck : FrameBits) :
    State.keysOk (State.markerRetirement s elapsed stuck) := by
  unfold State.markerRetirement
  split
  · next claimant e since ho =>
    split
    · dsimp only
      split
      · exact State.eraseGoesOn_keysOk keys ho _ _ _
      · exact State.attemptFailed_keysOk (s := State.setArray s (Memory.retireMarker s.array e.frame stuck)) work keys ho
    · exact keys
  · exact keys

omit work in
theorem State.stageComplete_keysOk (stage next : Stage) (elapsed : Nat) (stuck : FrameBits) :
    State.keysOk (State.stageComplete s stage next elapsed stuck) := by
  unfold State.stageComplete
  split
  · next claimant e since ho =>
    split
    · exact State.eraseGoesOn_keysOk keys ho _ _ _
    · exact keys
  · exact keys

theorem State.blankVerify_keysOk : State.keysOk (State.blankVerify s) := by
  unfold State.blankVerify
  split
  · next claimant e since ho =>
    split
    · split
      · exact State.eraseVerified_keysOk work keys ho
      · exact State.attemptFailed_keysOk work keys ho
    · exact keys
  · exact keys

omit work in
theorem State.quantum_keysOk : State.keysOk (State.quantum s) := by
  unfold State.quantum
  split
  · next ho =>
    split
    · exact State.setOp_keysOk keys ho rfl nofun
    · exact keys
  · exact keys

theorem State.suspension_keysOk (elapsed : Nat) (undone : FrameBits) : State.keysOk (State.suspension s elapsed undone) := by
  unfold State.suspension
  split
  · next e since k ho hk =>
    split
    · have ended : State.OpEnded s
          { s with
              array := Memory.eraseStage s.array e.frame e.stage undone
              ctrl := { s.ctrl with op := none, suspended := some { e with progress := e.progress + elapsed } } } :=
        ⟨rfl, rfl, rfl, rfl, rfl⟩
      exact State.OpEnded.serveWaiting_keysOk work keys ended
    · exact keys
  · exact keys

omit keys in
theorem State.work_none_of_quiet (quiet : State.quiet s = true) : s.mount.work = none := by
  simp only [State.quiet, Bool.and_eq_true, decide_eq_true_eq] at quiet
  obtain ⟨⟨ready, -⟩, -⟩ := quiet
  obtain ⟨mount, -⟩ := work
  exact State.work_none_of_part mount (by simp [ready])

theorem State.backgroundStart_keysOk : State.keysOk (State.backgroundStart s) := by
  unfold State.backgroundStart
  split
  · split
    · next quiet =>
      exact State.keysOk_of_eq keys rfl rfl rfl fun mounting => absurd (State.work_none_of_quiet work quiet) mounting
    · exact keys
  · exact keys

theorem State.backgroundResume_keysOk : State.keysOk (State.backgroundResume s) := by
  unfold State.backgroundResume
  split
  · split
    · next quiet =>
      exact State.keysOk_of_eq keys rfl rfl rfl fun mounting => absurd (State.work_none_of_quiet work quiet) mounting
    · exact keys
  · exact keys

end Events

/-! ### Resets and RESTART -/

/-- The part cleared by a reset has an empty index and nothing in progress (R192). -/
theorem State.heldInReset_keysOk (s : State) (undone : FrameBits) (pins : Pins) :
    State.keysOk (State.heldInReset s undone pins) := by
  simp [State.keysOk, State.indexOk, State.heldInReset, State.cleared, State.reset]

theorem State.powerOn_keysOk (s : State) (undone : FrameBits) : State.keysOk (State.powerOn s undone) :=
  State.beginMount_keysOk rfl

theorem State.resetnAssertion_keysOk {s : State} (keys : State.keysOk s) (undone : FrameBits) :
    State.keysOk (State.resetnAssertion s undone) := by
  unfold State.resetnAssertion
  split
  · exact State.heldInReset_keysOk s undone _
  · exact keys

theorem State.powerLoss_keysOk {s : State} (keys : State.keysOk s) (undone : FrameBits) :
    State.keysOk (State.powerLoss s undone) := by
  unfold State.powerLoss
  split
  · exact State.heldInReset_keysOk s undone _
  · exact keys

/-- While RESETN is low the index is empty, so the mount at its release begins on an empty one (R192, R193). -/
theorem State.resetnRelease_keysOk {s : State} (closed : State.closedOk s) (keys : State.keysOk s) :
    State.keysOk (State.resetnRelease s) := by
  unfold State.resetnRelease
  split
  · next low =>
    obtain ⟨-, -, -, -, -, -, empty, -⟩ := closed (by simp_all [State.portOpen])
    exact State.beginMount_keysOk empty
  · exact keys

theorem State.takeRestart_keysOk {s : State} (keys : State.keysOk s) (work : s.mount.work = none) (undone : FrameBits) :
    State.keysOk (State.takeRestart s undone) := by
  unfold State.takeRestart
  dsimp only
  split
  · exact State.clearForRestart_keysOk _
  · rw [State.abandon_eq]
    have abandoned : ∀ (i : Intake) (m : Memory) (c : Controller),
        State.keysOk { s with intake := i, array := m, ctrl := c } := fun i m c =>
      State.keysOk_of_eq keys rfl rfl rfl fun mounting => absurd work mounting
    unfold State.serveIfFree
    split
    · next idle => exact State.serveWaiting_keysOk (abandoned _ _ _) idle (by simp [work])
    · exact abandoned _ _ _

theorem State.restart_keysOk {s : State} (mount : State.mountOk s) (keys : State.keysOk s) (undone : FrameBits) :
    State.keysOk (State.restart s undone).1 := by
  unfold State.restart
  split
  · exact keys
  · next refused =>
    simp only [Bool.or_eq_true, decide_eq_true_eq, not_or] at refused
    exact State.takeRestart_keysOk keys (State.work_none_of_part mount refused.2) undone

/-! ### Every step -/

theorem State.tick_keysOk {s : State} (work : State.workOk s) (keys : State.keysOk s) : State.keysOk (State.tick s) := by
  obtain ⟨-, -, -, -, -, -, mount⟩ := work
  unfold State.tick
  split
  · next w hw =>
    split
    · next walk => exact State.walkOn_keysOk keys hw walk (mount w hw).1
    · exact keys
  · exact keys

theorem State.immediate_keysOk {s : State} (keys : State.keysOk s) (code : Byte) {act : Byte → State × List Byte}
    (h : ∀ captured, State.keysOk (act captured).1) : State.keysOk (State.immediate s code act) := by
  unfold State.immediate
  split
  · exact State.keysOk_of_eq (h _) rfl rfl rfl fun _ _ hf => hf
  · exact keys

/-- Whatever command or event is taken, the keys stay in order. -/
theorem exec_keysOk {c : Instr} {s t : State} (work : State.workOk s) (keys : State.keysOk s) (h : exec c s = .next t) :
    State.keysOk t := by
  have ⟨mount, closed, _⟩ := work
  cases c with
  | powerOn cut => cases h; exact State.powerOn_keysOk s cut
  | resetnAssertion cut => cases h; exact State.resetnAssertion_keysOk keys cut
  | resetnRelease => cases h; exact State.resetnRelease_keysOk closed keys
  | restart cut => cases h; exact State.immediate_keysOk keys _ fun _ => State.restart_keysOk mount keys cut
  | issue => cases h; exact State.dispatch_keysOk mount keys _ fun _ cmd off => State.runIssue_keysOk off cmd
  | lookup => cases h; exact State.dispatch_keysOk mount keys _ fun _ cmd off => State.runLookup_keysOk off cmd
  | draw => cases h; exact State.dispatch_keysOk mount keys _ fun _ cmd off => State.runDraw_keysOk off cmd
  | topup => cases h; exact State.dispatch_keysOk mount keys _ fun _ cmd off => State.runTopup_keysOk off cmd
  | move => cases h; exact State.dispatch_keysOk mount keys _ fun _ cmd off => State.runMove_keysOk off cmd
  | revoke => cases h; exact State.dispatch_keysOk mount keys _ fun _ cmd off => State.runRevoke_keysOk off cmd
  | list => cases h; exact State.dispatch_keysOk mount keys _ fun _ cmd off => off.post_keysOk cmd _
  | configureClass => cases h; exact State.dispatch_keysOk mount keys _ fun _ cmd off => State.runConfigureClass_keysOk off cmd
  | purgeOrphans => cases h; exact State.dispatch_keysOk mount keys _ fun _ cmd off => State.purgeNext_keysOk off cmd _ _ _
  | format cut => cases h; exact State.dispatch_keysOk mount keys _ fun _ cmd off => State.runFormat_keysOk off cmd cut
  | readComplete => cases h; exact State.readComplete_keysOk work keys
  | strikeComplete stuck => cases h; exact State.strikeComplete_keysOk work keys stuck
  | markerRetirement elapsed stuck => cases h; exact State.markerRetirement_keysOk work keys elapsed stuck
  | bodyErase elapsed stuck => cases h; exact State.stageComplete_keysOk keys _ _ elapsed stuck
  | markerErase elapsed stuck => cases h; exact State.stageComplete_keysOk keys _ _ elapsed stuck
  | systemFrameErase elapsed stuck => cases h; exact State.stageComplete_keysOk keys _ _ elapsed stuck
  | blankVerify => cases h; exact State.blankVerify_keysOk work keys
  | quantum => cases h; exact State.quantum_keysOk keys
  | suspension elapsed undone => cases h; exact State.suspension_keysOk work keys elapsed undone
  | backgroundStart => cases h; exact State.backgroundStart_keysOk work keys
  | backgroundResume => cases h; exact State.backgroundResume_keysOk work keys
  | powerLoss cut => cases h; exact State.powerLoss_keysOk keys cut
  | _ => exact (exec_linkPortOnly rfl h).keysOk keys

/-- Settles O53: every command and event keeps the keys in order, and so does the walk of a mount. -/
theorem distinctKeysInOrderKept : Obligations.DistinctKeysInOrderKept := by
  intro s t work keys h
  have keysT : State.keysOk t := by
    unfold step at h
    split at h
    · cases h
      exact State.tick_keysOk work keys
    · next c rest _ => exact exec_keysOk (s := { s with pending := rest }) work keys h
  exact ⟨keysT, keysT.1⟩

end Sys2Proof.Machine
end

section
/-! Dispatches that are due (R170): the command ends with its record, or claims its first operation (R114). -/

namespace Sys2Proof.Machine

/-- A dispatch that is due runs on the part whose queue the head has left. -/
theorem State.dispatch_of_due {s : State} {code : Byte} {cmd : Command} {rest : List Command}
    (due : State.dispatchDue s code cmd rest) (run : State → Command → State) :
    State.dispatch s code run = run (State.headLeft s rest) cmd := by
  obtain ⟨job, going, waiting, hcode, ready⟩ := due
  have head : State.dispatchHead s code = some cmd :=
    State.dispatchHead_eq_some.mpr ⟨job, going, by simp [State.admits, ready], hcode, rest, waiting⟩
  rw [State.dispatch_of_head head, waiting]
  rfl

/-- A command that ends at its dispatch posts its record, nothing else changed (R169, R172). -/
theorem State.post_headLeft {s : State} {code : Byte} {cmd : Command} {rest : List Command}
    (due : State.dispatchDue s code cmd rest) (r : Result) :
    State.post (State.headLeft s rest) cmd r = State.endedAtDispatch s cmd rest r := by
  obtain ⟨job, going, -, -, -⟩ := due
  have idle : ({ s.engine with job := none } : Engine) = s.engine := by rw [← job]
  rw [State.post_of_not_pending (by exact going)]
  simp [State.posted, State.headLeft, State.endedAtDispatch, idle]

/-- A dispatch whose first step is a claim begins its operation, or waits for the background operation (R114). -/
theorem State.dispatchClaims_of_claimStep {c : Instr} {s t : State} {cmd : Command} {rest : List Command}
    {step : EngineStep} {k : Claim} {op : Op} (ctrl : t.ctrl = s.ctrl) (hk : Claim.operation k = some op)
    (h : exec c s = .next (State.claimStep (State.headLeft t rest) cmd step k)) :
    State.dispatchClaims c s t cmd rest step k op := by
  rw [State.dispatchClaims, h]
  refine ⟨fun idle => ?_, fun background busy _ => ?_⟩
  · rw [State.claimStep_of_idle (s := State.headLeft t rest) (ctrl ▸ idle) hk]
    rfl
  · rw [State.claimStep_of_busy (s := State.headLeft t rest) (ctrl ▸ busy)]
    rfl

/-- Settles O16: each case is the first step of the dispatch that is due. -/
theorem lookupAndRevokeDispatch : Obligations.LookupAndRevokeDispatch := by
  refine ⟨fun index key => ⟨findEntry_eq_none_iff, fun e => findEntry_eq_some⟩, fun cmd => rfl, fun s cmd rest => ⟨?_, ?_⟩⟩
  · intro due
    have run : exec .lookup s = .next (State.runLookup (State.headLeft s rest) cmd) :=
      congrArg _ (State.dispatch_of_due due State.runLookup)
    refine ⟨fun absent => ?_, fun e found => ⟨fun corrupt => ?_, fun live => ?_⟩⟩
    · rw [run, ← State.post_headLeft due]
      simp [State.runLookup, absent, plainResult]
    · rw [run, ← State.post_headLeft due]
      simp [State.runLookup, found, corrupt, plainResult]
    · obtain ⟨cls, hcls⟩ := Option.ne_none_iff_exists'.mp live
      refine State.dispatchClaims_of_claimStep rfl rfl ?_
      rw [run]
      simp [State.runLookup, found, hcls, State.readEntry, State.snapshot]
  · intro due
    have run : exec .revoke s = .next (State.runRevoke (State.headLeft s rest) cmd) :=
      congrArg _ (State.dispatch_of_due due State.runRevoke)
    refine ⟨fun absent => ?_, fun e found => ?_⟩
    · rw [run, ← State.post_headLeft due]
      simp [State.runRevoke, absent, plainResult]
    · refine State.dispatchClaims_of_claimStep rfl rfl ?_
      rw [run]
      simp [State.runRevoke, found, State.readEntry, State.snapshot]

/-- Settles O21: a page is part of the index, whose order it keeps. -/
theorem listReturnsPage : Obligations.ListReturnsPage := by
  intro s cmd rest due selected
  refine ⟨?_, fun ordered => (ordered.filter _).sublist (List.take_sublist 16 selected)⟩
  have run : exec .list s = .next (State.runList (State.headLeft s rest) cmd) :=
    congrArg _ (State.dispatch_of_due due State.runList)
  rw [run, ← State.post_headLeft due]
  rfl

end Sys2Proof.Machine
end

section
/-! The completions that end or repoint a grant's entry: LOOKUP's READ, the MOVED and the RETIRED strike, the fallback (R30 to R32,
R37, R86). -/

namespace Sys2Proof.Machine

/-! ### A completion reported to the command in progress -/

/-- A completion on a frame changes FAULT_EVENT alone, which a failure on a system frame sets (R135, R136). -/
theorem State.systemFailure_eq (s : State) (f : Frame) (verified : Bool) :
    State.systemFailure s f verified =
      { s with link := { s.link with faultEvent := s.link.faultEvent || systemFrame f && !verified } } := by
  unfold State.systemFailure
  split
  · next failure => simp [failure, State.setFaultEvent]
  · next fine => simp [fine]

section Reports

variable {s : State} {j : Job} (work : s.mount.work = none) (hj : s.engine.job = some j)
include work hj

theorem State.reportRead_of_job (f : Frame) (img : Image) : State.reportRead s f img = State.engineRead s j f img := by
  simp [State.reportRead, work, hj]

theorem State.reportStrike_of_job (f : Frame) (verified : Bool) :
    State.reportStrike s f verified = State.engineStruck s j f verified := by
  simp [State.reportStrike, work, hj]

theorem State.reportErase_of_job (f : Frame) (verified : Bool) :
    State.reportErase s f verified = State.engineErased s j f verified := by
  simp [State.reportErase, work, hj]

/-- Outside a mount a READ is reported to the command in progress (R108, R109). -/
theorem exec_readComplete_of_job {f : Frame} (ho : s.ctrl.op = some (.read f)) :
    exec .readComplete s = .next (State.engineRead (State.clearOp s) j f (Memory.image s.array f)) := by
  simp only [exec, execReadComplete, State.readComplete, ho]
  rw [State.reportRead_of_job (s := State.clearOp s) work hj]

/-- Outside a mount a foreground STRIKE is reported to the command in progress, a failure on a system frame having set FAULT_EVENT
(R110, R135). -/
theorem exec_strikeComplete_of_job {f : Frame} {what : Strike} (ho : s.ctrl.op = some (.strike f .foreground what))
    (stuck : FrameBits) {m : Memory} (hm : m = Memory.strike s.array f (Strike.intended what) stuck) {verified : Bool}
    (hv : Strike.verifies what (Memory.image m f) = verified) :
    exec (.strikeComplete stuck) s =
      .next (State.engineStruck (State.systemFailure (State.setArray (State.clearOp s) m) f verified) j f verified) := by
  simp only [exec, execStrikeComplete, State.strikeComplete, ho, ← hm, hv]
  rw [State.reportStrike_of_job (j := j)] <;> simp [State.systemFailure_eq, work, hj]

/-- Outside a mount a foreground ERASE that verifies blank is reported to the command in progress (R113). -/
theorem exec_blankVerify_of_job {e : Erase} {since : Nat} (ho : s.ctrl.op = some (.erase .foreground e since))
    (stage : e.stage = .blankVerify) (blank : Image.blank (Memory.image s.array e.frame) = true) :
    exec .blankVerify s = .next (State.engineErased (State.clearOp s) j e.frame true) := by
  simp only [exec, execBlankVerify, State.blankVerify, ho, stage, blank, if_true, State.eraseVerified]
  rw [State.reportErase_of_job (s := State.clearOp s) work hj]

/-- A failed retry of a foreground ERASE outside a mount is reported to the command in progress (R113). -/
theorem exec_attemptFails_of_job {c : Instr} {t : State} {e : Erase} (h : State.attemptFails s .foreground e c t)
    (retry : e.attempt = .retry) :
    exec c s = .next (State.engineErased (State.systemFailure (State.clearOp t) e.frame false) j e.frame false) := by
  obtain ⟨run, same⟩ := State.exec_of_attemptFails h
  have workT : t.mount.work = none := by rw [same]; exact work
  have hjT : t.engine.job = some j := by rw [same]; exact hj
  simp only [run, State.attemptFailed, retry, State.eraseFailed]
  rw [State.reportErase_of_job (j := j)] <;> simp [State.systemFailure_eq, workT, hjT]

end Reports

/-- A failure on a grant frame sets no FAULT_EVENT (R135, R136). -/
theorem State.systemFailure_of_grant {f : Frame} (grant : 3 ≤ f.val) (s : State) (verified : Bool) :
    State.systemFailure s f verified = s := by
  have : systemFrame f = false := by simpa [systemFrame] using grant
  simp [State.systemFailure_eq, this]

/-- The ERASE of a grant frame begins with marker retirement (R112). -/
theorem Erase.start_of_grant {f : Frame} (grant : 3 ≤ f.val) :
    Erase.start f = { frame := f, attempt := .first, stage := .markerRetirement, progress := 0 } := by
  have : systemFrame f = false := by simpa [systemFrame] using grant
  simp [Erase.start, firstStage, this]

/-- The fallback holds the frame and its ERASE begins at once (R86). -/
theorem State.fallback_of_idle {s : State} (idle : s.ctrl.op = none) (cmd : Command) {f : Frame} (grant : 3 ≤ f.val)
    (fallback lost : Result) :
    State.fallback s cmd f fallback lost =
      State.wentOn (State.setHeld s (some f)) cmd (.fallbackErase fallback lost)
        (.erase .foreground { frame := f, attempt := .first, stage := .markerRetirement, progress := 0 } 0) :=
  State.claimStep_of_idle (s := State.setHeld s (some f)) idle (by rw [Claim.operation, Erase.start_of_grant grant]) cmd _

/-! ### The obligations -/

/-- Settles O26. The generation reported is the entry's, as a sound READ has it (R15). -/
theorem lookupReadReports : Obligations.LookupReadReports := by
  intro s cmd snap e f ho work hj going img g idle
  rw [exec_readComplete_of_job work hj ho]
  refine ⟨fun sound => ?_, fun unsound => ?_⟩
  · have gen : g.gen = e.gen := by
      simp only [Image.soundFor, Bool.and_eq_true, decide_eq_true_eq] at sound
      exact sound.2
    simp only [State.engineRead, State.lookupRead, img, sound, if_true]
    rw [State.post_of_not_pending (by exact going), ← gen]
    rfl
  · simp only [State.engineRead, State.lookupRead, img, unsound]
    rw [if_neg (by simp), State.post_of_not_pending (by exact going)]
    rfl

/-- Settles O33: the strike is reported to the relocation, on a grant frame without FAULT_EVENT. -/
theorem relocationRepointsEntry : Obligations.RelocationRepointsEntry := by
  intro s cmd w o new f what stuck ho grant work going old frame hj m result repointed
  subst frame
  have success : ∀ degraded, Writing.success w new degraded = result degraded := by
    intro degraded
    simp [Writing.success, old, result]
  refine ⟨fun verified => ?_, fun failed => ?_⟩
  · rw [exec_strikeComplete_of_job work hj ho stuck rfl verified, State.systemFailure_of_grant grant]
    simp only [State.engineStruck, State.movedDone, if_true]
    rw [State.post_of_not_pending (by exact going), success]
    rfl
  · rw [exec_strikeComplete_of_job work hj ho stuck rfl failed, State.systemFailure_of_grant grant]
    simp only [State.engineStruck, State.movedDone, Bool.false_eq_true, if_false, success]
    rw [State.fallback_of_idle rfl cmd grant]
    rfl

/-- Settles O35: each completion is reported to the command in progress, whose step says what follows. -/
theorem retiredStrikeAndFallback : Obligations.RetiredStrikeAndFallback := by
  refine ⟨?_, fun s cmd fallback lost work going => ⟨?_, ?_, ?_⟩⟩
  · intro s cmd ending f what stuck ho grant work going hj m remaining
    refine ⟨fun verified => ?_, fun failed => ?_⟩
    · rw [exec_strikeComplete_of_job work hj ho stuck rfl verified, State.systemFailure_of_grant grant]
      simp only [State.engineStruck, State.retiredDone, if_true]
      rw [State.post_of_not_pending (by exact going)]
      rfl
    · rw [exec_strikeComplete_of_job work hj ho stuck rfl failed, State.systemFailure_of_grant grant]
      simp only [State.engineStruck, State.retiredDone, Bool.false_eq_true, if_false]
      rw [State.fallback_of_idle rfl cmd grant]
      rfl
  · intro e since ho stage grant hj blank
    rw [exec_blankVerify_of_job work hj ho stage blank]
    simp only [State.engineErased, State.fallbackErased, if_true]
    rw [State.post_of_not_pending (by exact going)]
    rfl
  · intro e c t fails retry grant hj
    rw [exec_attemptFails_of_job work hj fails retry, State.systemFailure_of_grant grant]
    simp only [State.engineErased, State.fallbackErased, Bool.false_eq_true, if_false]
    rw [State.claimStep_clearOp t (op := .strike 2 .foreground (markStrike e.frame)) rfl]
    rfl
  · intro f what stuck ho hj m verified
    rw [exec_strikeComplete_of_job work hj ho stuck rfl rfl, State.systemFailure_eq]
    simp only [State.engineStruck, State.fallbackMarked]
    rw [State.post_of_not_pending (by exact going)]
    cases hv : verified <;> simp only [verified, m] at hv <;> rw [hv] <;> rfl

end Sys2Proof.Machine
end

section
/-! SET EPOCH (R43, R44): its outcome in each part state, and its answer. -/

namespace Sys2Proof.Machine

/-! ### The outcome -/

/-- The check against the epoch passes exactly when the value is not below it (R43, R44). -/
theorem epochCheck_eq_done_iff {value : Word} {epoch : Option Word} :
    State.epochOutcome.epochCheck value epoch = .done ↔ ∀ e, epoch = some e → e.toNat ≤ value.toNat := by
  cases epoch with
  | none => simp [State.epochOutcome.epochCheck]
  | some e => simp [State.epochOutcome.epochCheck]

/-- A value below the epoch is refused (R43). -/
theorem epochCheck_of_lt {value e : Word} (below : value.toNat < e.toNat) :
    State.epochOutcome.epochCheck value (some e) = .epochBackward := by
  simp [State.epochOutcome.epochCheck, below]

/-- In READY and MOUNTING the outcome is that of the check against the epoch (R43). -/
theorem State.epochOutcome_of_taken {s : State} (taken : s.part = .ready ∨ s.part = .mounting) (value : Word) :
    State.epochOutcome s value = State.epochOutcome.epochCheck value s.engine.epoch := by
  rcases taken with part | part <;> simp [State.epochOutcome, part]

/-- In the other part states SET EPOCH is refused (R43). -/
theorem State.epochOutcome_of_refused {s : State}
    (refused : s.part = .unformatted ∨ s.part = .faulted ∨ s.part = .formatting) (value : Word) :
    State.epochOutcome s value = .notReady := by
  rcases refused with part | part | part <;> simp [State.epochOutcome, part]

/-- Whatever the part state, a SET EPOCH that is done gives a value not below the epoch (R44). -/
theorem State.le_of_epochOutcome_done {s : State} {value : Word} (done : State.epochOutcome s value = .done) {e : Word}
    (set : s.engine.epoch = some e) : e.toNat ≤ value.toNat := by
  have taken : s.part = .ready ∨ s.part = .mounting := by
    cases part : s.part <;> simp [State.epochOutcome, part] at done ⊢
  rw [State.epochOutcome_of_taken taken] at done
  exact epochCheck_eq_done_iff.mp done e set

/-! ### The answer -/

/-- In a transaction SET EPOCH's answer follows the four bytes of the time in which its argument was clocked in
(R197). -/
theorem exec_setEpoch_of_decoding {s : State} {captured : Byte} (h : State.decoding s captured) (value : Word) :
    exec (.setEpoch value) s =
      .next
        (State.answered (State.setEpoch s value).1 captured
          ((List.range 4).map (Config.misoDuringArguments s.freeUses) ++ (State.setEpoch s value).2)) :=
  congrArg _ (State.immediate_of_decoding h 0x04 fun _ => State.setEpoch s value)

/-- Settles O12: the answer carries the outcome and the epoch as held after it. -/
theorem setEpochNeverLowers : Obligations.SetEpochNeverLowers := by
  intro value captured s decoding answers
  have answer {outcome : Code} {epoch : Option Word} (decided : State.epochOutcome s value = outcome)
      (held : (if outcome = .done then some value else s.engine.epoch) = epoch) :
      answers (Code.byte outcome) epoch := by
    have run := exec_setEpoch_of_decoding decoding value
    simp only [State.setEpoch, decided, held] at run
    cases epoch <;> exact run
  refine ⟨fun taken => ?_, fun part => answer (State.epochOutcome_of_refused part value) rfl⟩
  have check := State.epochOutcome_of_taken taken value
  refine ⟨fun unset => answer (outcome := .done) ?_ rfl,
    fun e set => ⟨fun le => answer (outcome := .done) ?_ rfl, fun lt => ?_⟩⟩
  · rw [check, unset]
    rfl
  · rw [check, set, epochCheck_eq_done_iff]
    rintro _ ⟨⟩
    exact le
  · exact answer (outcome := .epochBackward) (by rw [check, set, epochCheck_of_lt lt]) set

end Sys2Proof.Machine
end

section
/-! The epoch stands (R42, R44) while the command in progress, a mount and the array controller go on: only SET EPOCH
gives it a value, and only a reset or the clearing for a RESTART returns it to unset. -/

namespace Sys2Proof.Machine

/-- The epoch of `t` is that of `s`, or was unset by the clearing for a RESTART pending in `s` (R179). -/
def State.EpochStandsIn (t s : State) : Prop :=
  t.engine.epoch = s.engine.epoch ∨ t.engine.epoch = none ∧ s.intake.restartPending = true

/-! ### The command in progress -/

section Engine

variable (s : State) (cmd : Command)

theorem State.post_epochStands (r : Result) : State.EpochStandsIn (State.post s cmd r) s := by
  unfold State.post
  split
  · next pending => exact .inr ⟨rfl, pending⟩
  · exact .inl rfl

theorem State.demandNext_epochStands (w : Writing) : State.EpochStandsIn (State.demandNext s cmd w) s := by
  unfold State.demandNext
  split
  · exact .inl rfl
  · exact State.post_epochStands s cmd _

theorem State.take_epochStands (w : Writing) : State.EpochStandsIn (State.take s cmd w) s := by
  unfold State.take
  split
  · exact .inl rfl
  · unfold State.demandReclaim
    split
    · exact .inl rfl
    · exact .inl rfl
    · exact .inl rfl
    · exact State.demandNext_epochStands s cmd w

theorem State.newFrameReleased_epochStands (w : Writing) (f : Frame) (verified : Bool) :
    State.EpochStandsIn (State.newFrameReleased s cmd w f verified) s := by
  unfold State.newFrameReleased
  dsimp only
  split
  · exact State.take_epochStands _ cmd _
  · exact State.post_epochStands _ cmd _

theorem State.newFrameLive_epochStands (w : Writing) (f : Frame) :
    State.EpochStandsIn (State.newFrameLive s cmd w f) s := by
  unfold State.newFrameLive
  split
  · exact State.post_epochStands _ cmd _
  · exact .inl rfl

theorem State.demandErased_epochStands (w : Writing) (f : Frame) (verified : Bool) :
    State.EpochStandsIn (State.demandErased s cmd w f verified) s := by
  unfold State.demandErased
  split <;> exact .inl rfl

theorem State.movedDone_epochStands (w : Writing) (o : OldGrant) (new : Frame) (verified : Bool) :
    State.EpochStandsIn (State.movedDone s cmd w o new verified) s := by
  unfold State.movedDone
  dsimp only
  split
  · exact State.post_epochStands _ cmd _
  · exact .inl rfl

theorem State.retiredDone_epochStands (e : Ending) (f : Frame) (verified : Bool) :
    State.EpochStandsIn (State.retiredDone s cmd e f verified) s := by
  unfold State.retiredDone
  dsimp only
  split
  · exact State.post_epochStands _ cmd _
  · exact .inl rfl

theorem State.retire_epochStands (e : Ending) (f : Frame) (bits : Byte) :
    State.EpochStandsIn (State.retire s cmd e f bits) s := by
  unfold State.retire
  split
  · exact State.retiredDone_epochStands s cmd e f true
  · exact .inl rfl

theorem State.lookupRead_epochStands (snap : Snapshot) (e : Entry) (f : Frame) (img : Image) :
    State.EpochStandsIn (State.lookupRead s cmd snap e f img) s := by
  unfold State.lookupRead
  split <;> exact State.post_epochStands _ cmd _

theorem State.drawRead_epochStands (snap : Snapshot) (e : Entry) (f : Frame) (img : Image) :
    State.EpochStandsIn (State.drawRead s cmd snap e f img) s := by
  unfold State.drawRead
  split
  · dsimp only
    split
    · split
      · exact State.post_epochStands s cmd _
      · split
        · exact State.post_epochStands s cmd _
        · split
          · exact State.post_epochStands s cmd _
          · exact .inl rfl
    · exact State.post_epochStands s cmd _
  · exact State.post_epochStands _ cmd _

theorem State.drawStruckB_epochStands (d : Drawing) (e : Entry) (verifiedA : Bool) (f : Frame) (verifiedB : Bool) :
    State.EpochStandsIn (State.drawStruckB s cmd d e verifiedA f verifiedB) s := by
  unfold State.drawStruckB
  split
  · exact .inl rfl
  · dsimp only
    split
    · exact State.retire_epochStands s cmd _ f _
    · exact State.post_epochStands s cmd _

theorem State.drawReadBack_epochStands (d : Drawing) (e : Entry) (img : Image) :
    State.EpochStandsIn (State.drawReadBack s cmd d e img) s := by
  unfold State.drawReadBack
  split <;> exact State.post_epochStands _ cmd _

theorem State.topupRead_epochStands (snap : Snapshot) (e : Entry) (f : Frame) (img : Image) :
    State.EpochStandsIn (State.topupRead s cmd snap e f img) s := by
  unfold State.topupRead
  split
  · dsimp only
    split
    · split
      · exact State.post_epochStands s cmd _
      · split
        · exact State.post_epochStands s cmd _
        · split
          · exact State.post_epochStands s cmd _
          · exact State.take_epochStands s cmd _
    · exact State.post_epochStands s cmd _
  · exact State.post_epochStands _ cmd _

theorem State.moveRead_epochStands (e : Entry) (f : Frame) (img : Image) :
    State.EpochStandsIn (State.moveRead s cmd e f img) s := by
  unfold State.moveRead
  split
  · dsimp only
    split
    · exact State.post_epochStands s cmd _
    · exact State.take_epochStands s cmd _
  · exact State.post_epochStands _ cmd _

theorem State.revokeRead_epochStands (snap : Snapshot) (e : Entry) (f : Frame) (img : Image) :
    State.EpochStandsIn (State.revokeRead s cmd snap e f img) s := by
  unfold State.revokeRead
  dsimp only
  split
  · exact State.retire_epochStands s cmd _ f _
  · split
    · split
      · split
        · exact State.retire_epochStands s cmd _ f _
        · exact State.post_epochStands s cmd _
      · exact State.post_epochStands s cmd _
    · exact State.retire_epochStands _ cmd _ f _

theorem State.configureStruck_epochStands (k : ClassNo) (p : Policy) (verified : Bool) :
    State.EpochStandsIn (State.configureStruck s cmd k p verified) s := by
  unfold State.configureStruck
  split
  · exact State.post_epochStands _ cmd _
  · exact .inl rfl

theorem State.purgeNext_epochStands (members : List Frame) (moved failed : Nat) :
    State.EpochStandsIn (State.purgeNext s cmd members moved failed) s := by
  unfold State.purgeNext
  split
  · exact .inl rfl
  · exact State.post_epochStands s cmd _

theorem State.fallbackErased_epochStands (fallback lost : Result) (f : Frame) (verified : Bool) :
    State.EpochStandsIn (State.fallbackErased s cmd fallback lost f verified) s := by
  unfold State.fallbackErased
  split
  · exact State.post_epochStands _ cmd _
  · exact .inl rfl

@[simp] theorem State.formatSweep_epoch (f : Formatting) (n : Nat) :
    (State.formatSweep s cmd f n).engine.epoch = s.engine.epoch := by
  unfold State.formatSweep
  split <;> rfl

@[simp] theorem State.formatErased_epoch (f : Formatting) (g : Frame) (verified : Bool) :
    (State.formatErased s cmd f g verified).engine.epoch = s.engine.epoch := by
  unfold State.formatErased
  repeat' split
  all_goals simp

@[simp] theorem State.formatMarked_epoch (f : Formatting) (g : Frame) (verified : Bool) :
    (State.formatMarked s cmd f g verified).engine.epoch = s.engine.epoch := by
  unfold State.formatMarked
  split <;> simp

theorem State.formatWritten_epochStands (f : Formatting) (verified : Bool) :
    State.EpochStandsIn (State.formatWritten s cmd f verified) s := by
  unfold State.formatWritten
  split
  · next pending => exact .inr ⟨rfl, pending⟩
  · exact .inl rfl

theorem State.engineRead_epochStands (j : Job) (f : Frame) (img : Image) :
    State.EpochStandsIn (State.engineRead s j f img) s := by
  obtain ⟨cmd, step⟩ := j
  cases step <;> dsimp only [State.engineRead]
  case lookupRead snap e => exact State.lookupRead_epochStands s cmd snap e f img
  case drawRead snap e => exact State.drawRead_epochStands s cmd snap e f img
  case drawReadBack d e => exact State.drawReadBack_epochStands s cmd d e img
  case topupRead snap e => exact State.topupRead_epochStands s cmd snap e f img
  case moveRead e => exact State.moveRead_epochStands s cmd e f img
  case revokeRead snap e => exact State.revokeRead_epochStands s cmd snap e f img
  case configureRead k => exact State.post_epochStands _ cmd _
  all_goals exact .inl rfl

theorem State.engineStruck_epochStands (j : Job) (f : Frame) (verified : Bool) :
    State.EpochStandsIn (State.engineStruck s j f verified) s := by
  obtain ⟨cmd, step⟩ := j
  cases step <;> dsimp only [State.engineStruck]
  case drawStrikeB d e verifiedA => exact State.drawStruckB_epochStands s cmd d e verifiedA f verified
  case takeMark g w => exact State.demandNext_epochStands _ cmd w
  case openingStrike w => split <;> exact .inl rfl
  case bodyStrike w => split <;> exact .inl rfl
  case liveStrike w =>
    split
    · exact State.newFrameLive_epochStands s cmd w f
    · exact .inl rfl
  case newFrameMark g w => exact State.newFrameReleased_epochStands s cmd w g verified
  case movedStrike w o new => exact State.movedDone_epochStands s cmd w o new verified
  case retiredStrike e => exact State.retiredDone_epochStands s cmd e f verified
  case fallbackMark g fallback lost => exact State.post_epochStands _ cmd _
  case configureStrike k p => exact State.configureStruck_epochStands s cmd k p verified
  case purgeStrike rest moved failed => exact State.purgeNext_epochStands _ cmd rest _ _
  case formatMark g fm => exact .inl (by simp)
  case formatRecord fm => exact State.formatWritten_epochStands s cmd fm verified
  all_goals exact .inl rfl

theorem State.engineErased_epochStands (j : Job) (f : Frame) (verified : Bool) :
    State.EpochStandsIn (State.engineErased s j f verified) s := by
  obtain ⟨cmd, step⟩ := j
  cases step <;> dsimp only [State.engineErased]
  case takeErase w => exact State.demandErased_epochStands s cmd w f verified
  case fallbackErase fallback lost => exact State.fallbackErased_epochStands s cmd fallback lost f verified
  case formatErase fm => exact .inl (by simp)
  all_goals exact .inl rfl

end Engine

/-! ### A mount -/

section Mount

variable (s : State) (w : MountWork)

theorem State.mountEnds_epochStands (part : PartState) : State.EpochStandsIn (State.mountEnds s part) s := by
  unfold State.mountEnds
  dsimp only
  split
  · exact State.post_epochStands _ _ _
  · exact .inl rfl

@[simp] theorem State.placeFrame_epoch (q : Frame × Placement) :
    (State.placeFrame s q).engine.epoch = s.engine.epoch := by
  unfold State.placeFrame
  repeat' split
  all_goals rfl

theorem State.tick_epochStands : State.EpochStandsIn (State.tick s) s := by
  unfold State.tick
  split
  · split
    · unfold State.walkOn
      split
      · exact State.mountEnds_epochStands s .ready
      · exact .inl (State.placeFrame_epoch _ _)
    · exact .inl rfl
  · exact .inl rfl

@[simp] theorem State.resolve_epoch (todo winners : List Candidate) :
    (State.resolve s w todo winners).engine.epoch = s.engine.epoch := by
  induction todo generalizing winners with
  | nil => rfl
  | cons q todo ih =>
    unfold State.resolve
    split
    · exact ih _
    · rfl

@[simp] theorem State.scanFrom_epoch (n : Nat) : (State.scanFrom s w n).engine.epoch = s.engine.epoch := by
  unfold State.scanFrom
  split <;> simp

@[simp] theorem State.scanned_epoch (f : Frame) (found : Scanned) :
    (State.scanned s w f found).engine.epoch = s.engine.epoch := by
  unfold State.scanned
  split <;> simp

@[simp] theorem State.scanRead_epoch (f : Frame) (img : Image) :
    (State.scanRead s w f img).engine.epoch = s.engine.epoch := by
  unfold State.scanRead
  repeat' split
  all_goals simp

theorem State.mountFormat_epochStands (img : Image) : State.EpochStandsIn (State.mountFormat s w img) s := by
  unfold State.mountFormat
  split
  · exact State.mountEnds_epochStands _ .unformatted
  · split
    · exact .inl rfl
    · exact State.mountEnds_epochStands _ .faulted

@[simp] theorem State.mountPolicies_epoch (img : Image) :
    (State.mountPolicies s w img).engine.epoch = s.engine.epoch := by
  simp [State.mountPolicies]

@[simp] theorem State.mountGoesOn_epoch (f : Frame) (next : MountNext) :
    (State.mountGoesOn s w f next).engine.epoch = s.engine.epoch := by
  unfold State.mountGoesOn
  split <;> simp

theorem State.mountRead_epochStands (f : Frame) (img : Image) : State.EpochStandsIn (State.mountRead s w f img) s := by
  unfold State.mountRead
  split
  · exact State.mountFormat_epochStands s w img
  · exact .inl rfl
  · exact .inl (State.mountPolicies_epoch s w img)
  · exact .inl (State.scanRead_epoch s w f img)
  · exact .inl rfl

@[simp] theorem State.mountStruck_epoch (f : Frame) (verified : Bool) :
    (State.mountStruck s w f verified).engine.epoch = s.engine.epoch := by
  unfold State.mountStruck
  repeat' split
  all_goals simp [State.mountFallback]

@[simp] theorem State.mountErased_epoch (f : Frame) (verified : Bool) :
    (State.mountErased s w f verified).engine.epoch = s.engine.epoch := by
  unfold State.mountErased
  repeat' split
  all_goals simp

end Mount

/-! ### Reports, and the waiting claim -/

section Reports

variable (s : State)

theorem State.reportRead_epochStands (f : Frame) (img : Image) : State.EpochStandsIn (State.reportRead s f img) s := by
  unfold State.reportRead
  split
  · exact State.mountRead_epochStands s _ f img
  · exact State.engineRead_epochStands s _ f img
  · exact .inl rfl

theorem State.reportStrike_epochStands (f : Frame) (verified : Bool) :
    State.EpochStandsIn (State.reportStrike s f verified) s := by
  unfold State.reportStrike
  split
  · exact .inl (State.mountStruck_epoch s _ f verified)
  · exact State.engineStruck_epochStands s _ f verified
  · exact .inl rfl

theorem State.reportErase_epochStands (f : Frame) (verified : Bool) :
    State.EpochStandsIn (State.reportErase s f verified) s := by
  unfold State.reportErase
  split
  · exact .inl (State.mountErased_epoch s _ f verified)
  · exact State.engineErased_epochStands s _ f verified
  · exact .inl rfl

theorem State.serveWaiting_epochStands : State.EpochStandsIn (State.serveWaiting s) s := by
  unfold State.serveWaiting
  split
  · exact .inl rfl
  · dsimp only
    split
    · exact State.take_epochStands _ _ _
    · exact .inl rfl
  · exact .inl rfl

end Reports

/-! ### The events of the array controller -/

section Events

variable (s : State)

theorem State.readComplete_epochStands : State.EpochStandsIn (State.readComplete s) s := by
  unfold State.readComplete
  split
  · exact State.reportRead_epochStands _ _ _
  · exact .inl rfl

theorem State.backgroundMarked_epochStands (verified : Bool) :
    State.EpochStandsIn (State.backgroundMarked s verified) s := by
  unfold State.backgroundMarked
  split <;> exact State.serveWaiting_epochStands _

theorem State.strikeComplete_epochStands (stuck : FrameBits) : State.EpochStandsIn (State.strikeComplete s stuck) s := by
  unfold State.strikeComplete
  split
  · dsimp only
    rw [State.systemFailure_eq]
    split
    · exact State.reportStrike_epochStands _ _ _
    · exact State.backgroundMarked_epochStands _ _
  · exact .inl rfl

theorem State.eraseVerified_epochStands (claimant : Claimant) (f : Frame) :
    State.EpochStandsIn (State.eraseVerified s claimant f) s := by
  cases claimant with
  | foreground => exact State.reportErase_epochStands _ f true
  | background => exact State.serveWaiting_epochStands _

theorem State.eraseFailed_epochStands (claimant : Claimant) (f : Frame) :
    State.EpochStandsIn (State.eraseFailed s claimant f) s := by
  cases claimant with
  | foreground =>
    dsimp only [State.eraseFailed]
    rw [State.systemFailure_eq]
    exact State.reportErase_epochStands _ f false
  | background => exact .inl rfl

theorem State.attemptFailed_epochStands (claimant : Claimant) (e : Erase) :
    State.EpochStandsIn (State.attemptFailed s claimant e) s := by
  unfold State.attemptFailed
  split
  · exact State.eraseFailed_epochStands s claimant e.frame
  · split
    · exact State.serveWaiting_epochStands _
    · exact .inl rfl

theorem State.markerRetirement_epochStands (elapsed : Nat) (stuck : FrameBits) :
    State.EpochStandsIn (State.markerRetirement s elapsed stuck) s := by
  unfold State.markerRetirement
  split
  · split
    · dsimp only
      split
      · exact .inl rfl
      · exact State.attemptFailed_epochStands _ _ _
    · exact .inl rfl
  · exact .inl rfl

@[simp] theorem State.stageComplete_epoch (stage next : Stage) (elapsed : Nat) (stuck : FrameBits) :
    (State.stageComplete s stage next elapsed stuck).engine.epoch = s.engine.epoch := by
  unfold State.stageComplete
  repeat' split
  all_goals rfl

theorem State.blankVerify_epochStands : State.EpochStandsIn (State.blankVerify s) s := by
  unfold State.blankVerify
  split
  · split
    · split
      · exact State.eraseVerified_epochStands s _ _
      · exact State.attemptFailed_epochStands s _ _
    · exact .inl rfl
  · exact .inl rfl

@[simp] theorem State.quantum_epoch : (State.quantum s).engine.epoch = s.engine.epoch := by
  unfold State.quantum
  repeat' split
  all_goals rfl

theorem State.suspension_epochStands (elapsed : Nat) (undone : FrameBits) :
    State.EpochStandsIn (State.suspension s elapsed undone) s := by
  unfold State.suspension
  split
  · split
    · exact State.serveWaiting_epochStands _
    · exact .inl rfl
  · exact .inl rfl

@[simp] theorem State.backgroundStart_epoch : (State.backgroundStart s).engine.epoch = s.engine.epoch := by
  unfold State.backgroundStart
  repeat' split
  all_goals rfl

@[simp] theorem State.backgroundResume_epoch : (State.backgroundResume s).engine.epoch = s.engine.epoch := by
  unfold State.backgroundResume
  repeat' split
  all_goals rfl

end Events

/-! ### Dispatches -/

section Dispatches

/-- A dispatch does to the epoch what its first step does. -/
theorem State.dispatch_epochStands {run : State → Command → State} (h : ∀ t cmd, State.EpochStandsIn (run t cmd) t)
    (s : State) (code : Byte) : State.EpochStandsIn (State.dispatch s code run) s := by
  unfold State.dispatch
  split
  · exact .inl rfl
  · exact h _ _

variable (s : State) (cmd : Command)

theorem State.runIssue_epochStands : State.EpochStandsIn (State.runIssue s cmd) s := by
  unfold State.runIssue
  dsimp only
  split
  · exact State.post_epochStands s cmd _
  · split
    · exact State.post_epochStands s cmd _
    · exact State.post_epochStands s cmd _
    · split
      · exact State.post_epochStands s cmd _
      · split
        · exact State.post_epochStands s cmd _
        · exact State.take_epochStands s cmd _

theorem State.runLookup_epochStands : State.EpochStandsIn (State.runLookup s cmd) s := by
  unfold State.runLookup
  split
  · exact State.post_epochStands s cmd _
  · split
    · exact State.post_epochStands s cmd _
    · exact .inl rfl

theorem State.runDraw_epochStands : State.EpochStandsIn (State.runDraw s cmd) s := by
  unfold State.runDraw
  split
  · exact State.post_epochStands s cmd _
  · split
    · exact State.post_epochStands s cmd _
    · split
      · exact State.post_epochStands s cmd _
      · exact .inl rfl

theorem State.runTopup_epochStands : State.EpochStandsIn (State.runTopup s cmd) s := by
  unfold State.runTopup
  split
  · exact State.post_epochStands s cmd _
  · split
    · exact State.post_epochStands s cmd _
    · split
      · exact State.post_epochStands s cmd _
      · exact .inl rfl

theorem State.runMove_epochStands : State.EpochStandsIn (State.runMove s cmd) s := by
  unfold State.runMove
  split
  · exact State.post_epochStands s cmd _
  · split
    · exact State.post_epochStands s cmd _
    · exact .inl rfl

theorem State.runRevoke_epochStands : State.EpochStandsIn (State.runRevoke s cmd) s := by
  unfold State.runRevoke
  split
  · exact State.post_epochStands s cmd _
  · exact .inl rfl

theorem State.runConfigureClass_epochStands : State.EpochStandsIn (State.runConfigureClass s cmd) s := by
  unfold State.runConfigureClass
  dsimp only
  split
  · exact State.post_epochStands s cmd _
  · split
    · exact .inl rfl
    · exact State.post_epochStands s cmd _
    · exact State.post_epochStands s cmd _

theorem State.runFormat_epochStands (undone : FrameBits) : State.EpochStandsIn (State.runFormat undone s cmd) s := by
  unfold State.runFormat State.enterFormatting
  dsimp only
  rw [State.abandon_eq]
  split <;> exact .inl rfl

end Dispatches

/-! ### Resets, RESTART and the link port -/

section Link

variable (s : State)

@[simp] theorem State.resetnRelease_epoch : (State.resetnRelease s).engine.epoch = s.engine.epoch := by
  unfold State.resetnRelease
  split <;> rfl

/-- RESTART leaves the epoch, or clears it at once (R178, R179). -/
theorem State.restart_epoch (undone : FrameBits) :
    (State.restart s undone).1.engine.epoch = s.engine.epoch ∨ (State.restart s undone).1.engine.epoch = none := by
  unfold State.restart
  split
  · exact .inl rfl
  · dsimp only
    unfold State.takeRestart
    dsimp only
    split
    · exact .inr rfl
    · rw [State.abandon_eq]
      unfold State.serveIfFree
      split
      · exact (State.serveWaiting_epochStands _).imp_right And.left
      · exact .inl rfl

@[simp] theorem State.chipSelectFall_epoch : (State.chipSelectFall s).engine.epoch = s.engine.epoch := by
  unfold State.chipSelectFall
  repeat' split
  all_goals rfl

@[simp] theorem State.submission_epoch (code tag : Byte) (args : List Byte) (crc : Word) :
    (State.submission s code tag args crc).engine.epoch = s.engine.epoch := by
  unfold State.submission
  split
  · split
    · dsimp only
      split <;> rfl
    · rfl
  · rfl

@[simp] theorem State.submissionTruncated_epoch (bytes : List Byte) :
    (State.submissionTruncated s bytes).engine.epoch = s.engine.epoch := by
  unfold State.submissionTruncated
  repeat' split
  all_goals rfl

@[simp] theorem State.collect_epoch : (State.collect s).engine.epoch = s.engine.epoch := by
  unfold State.collect
  repeat' split
  all_goals rfl

@[simp] theorem State.recordShiftedOut_epoch : (State.recordShiftedOut s).engine.epoch = s.engine.epoch := by
  unfold State.recordShiftedOut
  split <;> rfl

@[simp] theorem State.changeHold_epoch (cls : Byte) (hold : Bool) :
    (State.changeHold s cls hold).1.engine.epoch = s.engine.epoch := by
  unfold State.changeHold
  repeat' split
  all_goals rfl

@[simp] theorem State.cancel_epoch (tag : Byte) : (State.cancel s tag).1.engine.epoch = s.engine.epoch := by
  unfold State.cancel
  dsimp only
  split <;> rfl

/-- SET EPOCH that is done sets its value; else the epoch stands (R43). -/
theorem State.setEpoch_epoch (value : Word) :
    (State.setEpoch s value).1.engine.epoch = s.engine.epoch ∨
      State.epochOutcome s value = .done ∧ (State.setEpoch s value).1.engine.epoch = some value := by
  unfold State.setEpoch
  dsimp only
  split
  · next done => exact .inr ⟨done, rfl⟩
  · exact .inl rfl

variable {s}

/-- An immediate command does to the epoch what its act does, or is not taken. -/
theorem State.immediate_epoch {P : Option Word → Prop} (kept : P s.engine.epoch) (code : Byte)
    {act : Byte → State × List Byte} (acts : ∀ captured, P (act captured).1.engine.epoch) :
    P (State.immediate s code act).engine.epoch := by
  unfold State.immediate
  split
  · exact acts _
  · exact kept

theorem State.immediate_epochStands (code : Byte) {act : Byte → State × List Byte}
    (acts : ∀ captured, (act captured).1.engine.epoch = s.engine.epoch) :
    State.EpochStandsIn (State.immediate s code act) s :=
  .inl (State.immediate_epoch (P := (· = s.engine.epoch)) rfl code acts)

end Link

/-! ### Every step -/

/-- The commands and events that may change the epoch with no RESTART pending: SET EPOCH, and the resets and RESTART,
which return it to unset (R42, R44). -/
def changesEpoch : Instr → Bool
  | .setEpoch _ => true
  | .powerOn _ => true
  | .resetnAssertion _ => true
  | .powerLoss _ => true
  | .restart _ => true
  | _ => false

/-- Whatever other command or event is taken, the epoch stands. -/
theorem exec_epochStands {c : Instr} (hc : changesEpoch c = false) {s t : State} (h : exec c s = .next t) :
    State.EpochStandsIn t s := by
  cases c with
  | resetnRelease => cases h; exact .inl (State.resetnRelease_epoch s)
  | chipSelectFall => cases h; exact .inl (State.chipSelectFall_epoch s)
  | submission code tag args crc => cases h; exact .inl (State.submission_epoch s code tag args crc)
  | submissionTruncated bytes => cases h; exact .inl (State.submissionTruncated_epoch s bytes)
  | status => cases h; exact State.immediate_epochStands _ fun _ => rfl
  | collect => cases h; exact .inl (State.collect_epoch s)
  | recordShiftedOut => cases h; exact .inl (State.recordShiftedOut_epoch s)
  | info => cases h; exact State.immediate_epochStands _ fun _ => rfl
  | holdClass cls => cases h; exact State.immediate_epochStands _ fun _ => State.changeHold_epoch s cls true
  | releaseClass cls => cases h; exact State.immediate_epochStands _ fun _ => State.changeHold_epoch s cls false
  | cancel tag => cases h; exact State.immediate_epochStands _ fun _ => State.cancel_epoch s tag
  | unknownImmediateCommand code =>
    cases h
    split
    · exact .inl rfl
    · exact State.immediate_epochStands _ fun _ => rfl
  | issue => cases h; exact State.dispatch_epochStands State.runIssue_epochStands s _
  | lookup => cases h; exact State.dispatch_epochStands State.runLookup_epochStands s _
  | draw => cases h; exact State.dispatch_epochStands State.runDraw_epochStands s _
  | topup => cases h; exact State.dispatch_epochStands State.runTopup_epochStands s _
  | move => cases h; exact State.dispatch_epochStands State.runMove_epochStands s _
  | revoke => cases h; exact State.dispatch_epochStands State.runRevoke_epochStands s _
  | list => cases h; exact State.dispatch_epochStands (fun t cmd => State.post_epochStands t cmd _) s _
  | configureClass => cases h; exact State.dispatch_epochStands State.runConfigureClass_epochStands s _
  | purgeOrphans => cases h; exact State.dispatch_epochStands (fun t cmd => State.purgeNext_epochStands t cmd _ _ _) s _
  | format cut => cases h; exact State.dispatch_epochStands (fun t cmd => State.runFormat_epochStands t cmd cut) s _
  | readComplete => cases h; exact State.readComplete_epochStands s
  | strikeComplete stuck => cases h; exact State.strikeComplete_epochStands s stuck
  | markerRetirement elapsed stuck => cases h; exact State.markerRetirement_epochStands s elapsed stuck
  | bodyErase elapsed stuck => cases h; exact .inl (State.stageComplete_epoch s _ _ elapsed stuck)
  | markerErase elapsed stuck => cases h; exact .inl (State.stageComplete_epoch s _ _ elapsed stuck)
  | systemFrameErase elapsed stuck => cases h; exact .inl (State.stageComplete_epoch s _ _ elapsed stuck)
  | blankVerify => cases h; exact State.blankVerify_epochStands s
  | quantum => cases h; exact .inl (State.quantum_epoch s)
  | suspension elapsed undone => cases h; exact State.suspension_epochStands s elapsed undone
  | backgroundStart => cases h; exact .inl (State.backgroundStart_epoch s)
  | backgroundResume => cases h; exact .inl (State.backgroundResume_epoch s)
  | transactionEnd => cases h; exact .inl rfl
  | _ => exact absurd hc nofun

/-- A step that changes the epoch is a SET EPOCH that is done, or returns it to unset: the clearing for a pending RESTART, a
reset, or a RESTART. -/
theorem exec_epoch {c : Instr} {s t : State} (h : exec c s = .next t) :
    State.EpochStandsIn t s ∨
      (∃ value, c = .setEpoch value ∧ State.epochOutcome s value = .done ∧ t.engine.epoch = some value) ∨
      t.engine.epoch = none ∧
        ∃ cut, c = .powerOn cut ∨ c = .resetnAssertion cut ∨ c = .powerLoss cut ∨ c = .restart cut := by
  cases c with
  | setEpoch value =>
    cases h
    obtain stands | ⟨done, set⟩ :=
      State.immediate_epoch (P := fun x => x = s.engine.epoch ∨ State.epochOutcome s value = .done ∧ x = some value)
        (.inl rfl) 0x04 fun _ => State.setEpoch_epoch s value
    · exact .inl (.inl stands)
    · exact .inr (.inl ⟨value, rfl, done, set⟩)
  | powerOn cut => cases h; exact .inr (.inr ⟨rfl, cut, by simp⟩)
  | resetnAssertion cut =>
    cases h
    unfold State.resetnAssertion
    split
    · exact .inr (.inr ⟨rfl, cut, by simp⟩)
    · exact .inl (.inl rfl)
  | powerLoss cut =>
    cases h
    unfold State.powerLoss
    split
    · exact .inr (.inr ⟨rfl, cut, by simp⟩)
    · exact .inl (.inl rfl)
  | restart cut =>
    cases h
    obtain stands | unset :=
      State.immediate_epoch (P := fun x => x = s.engine.epoch ∨ x = none) (.inl rfl) 0x08 fun _ =>
        State.restart_epoch s cut
    · exact .inl (.inl stands)
    · exact .inr (.inr ⟨unset, cut, by simp⟩)
  | _ => exact .inl (exec_epochStands rfl h)

/-- Settles O57: the walk of a mount leaves the epoch, and so does every command and event but those that set or clear
it. -/
theorem epochNeverDecreases : Obligations.EpochNeverDecreases := by
  intro s t h changed
  have cleared (stands : State.EpochStandsIn t s) : t.engine.epoch = none ∧ s.intake.restartPending = true :=
    stands.resolve_left changed
  unfold step at h
  split at h
  · cases h
    obtain ⟨unset, pending⟩ := cleared (State.tick_epochStands s)
    exact .inr ⟨unset, .inl pending⟩
  · next c rest queue =>
    rw [queue]
    obtain kept | ⟨value, rfl, done, set⟩ | ⟨unset, cut, reset⟩ := exec_epoch h
    · obtain ⟨unset, pending⟩ := cleared kept
      exact .inr ⟨unset, .inl pending⟩
    · exact .inl ⟨value, rfl, set, fun e => State.le_of_epochOutcome_done done⟩
    · exact .inr ⟨unset, .inr ⟨cut, by simpa using reset⟩⟩

end Sys2Proof.Machine
end

section
/-! DRAW (R45 to R59): its dispatch, its READ, its strikes and its read-back. -/

namespace Sys2Proof.Machine

/-! ### Arguments -/

/-- A two-byte argument, most significant byte first (R181). -/
theorem argNat16_eq (args : List Byte) (o : Nat) :
    argNat16 args o = (argByte args o).toNat * 256 + (argByte args (o + 1)).toNat :=
  beNat_pair (argByte args o) (argByte args (o + 1))

section Arguments

variable {args : List Byte}

theorem drawArgs_of_units_out (h : ¬ (1 ≤ argNat16 args 4 ∧ argNat16 args 4 ≤ 1024)) : drawArgs args = none := by
  simpa [drawArgs] using fun least most => absurd ⟨least, most⟩ h

theorem drawArgs_of_units_in (h : 1 ≤ argNat16 args 4 ∧ argNat16 args 4 ≤ 1024) :
    drawArgs args =
      if argByte args 6 = 0 then some (argNat16 args 4, .exact)
      else if argByte args 6 = 1 then some (argNat16 args 4, .upto) else none := by
  simp [drawArgs, h]

/-- DRAW's arguments are refused exactly when they are not in their ranges (R45). -/
theorem drawArgs_eq_none_iff :
    drawArgs args = none ↔
      ¬ (1 ≤ argNat16 args 4 ∧ argNat16 args 4 ≤ 1024 ∧ (argByte args 6 = 0 ∨ argByte args 6 = 1)) := by
  by_cases units : 1 ≤ argNat16 args 4 ∧ argNat16 args 4 ≤ 1024
  · rw [drawArgs_of_units_in units]
    simp only [units, true_and, not_or]
    split <;> simp_all
  · rw [drawArgs_of_units_out units]
    tauto

end Arguments

/-! ### Dispatch -/

/-- Settles O17: each case is the first step of the dispatch that is due. -/
theorem drawDispatch : Obligations.DrawDispatch := by
  refine ⟨fun args o => ⟨rfl, argNat16_eq args o⟩, ?_, ?_⟩
  · intro args units inRange
    refine ⟨drawArgs_of_units_out, fun h => ?_⟩
    rw [drawArgs_of_units_in h]
    refine ⟨fun exact => if_pos exact, fun upto => ?_, fun notExact notUpto => ?_⟩
    · simp [upto, units]
    · exact (if_neg notExact).trans (if_neg notUpto)
  · intro s cmd rest due valid ends
    have run : exec .draw s = .next (State.runDraw (State.headLeft s rest) cmd) :=
      congrArg _ (State.dispatch_of_due due State.runDraw)
    have ended {outcome : Code} {key : Word} {gen : Option Gen}
        (h : State.runDraw (State.headLeft s rest) cmd =
          State.post (State.headLeft s rest) cmd (plainResult outcome (.draw key gen 0 none))) :
        ends outcome key gen := by
      rw [State.post_headLeft due] at h
      exact run.trans (congrArg _ h)
    refine ⟨fun invalid => ended ?_, fun inRange => ?_⟩
    · simp [State.runDraw, drawArgs_eq_none_iff.mpr invalid]
    · obtain ⟨given, taken⟩ := Option.ne_none_iff_exists'.mp (mt drawArgs_eq_none_iff.mp (not_not.mpr inRange))
      refine ⟨fun absent => ended ?_, fun e found => ⟨fun corrupt => ended ?_, fun live => ?_⟩⟩
      · simp [State.runDraw, taken, absent]
      · simp [State.runDraw, taken, found, corrupt]
      · obtain ⟨cls, hcls⟩ := Option.ne_none_iff_exists'.mp live
        refine State.dispatchClaims_of_claimStep rfl rfl (run.trans ?_)
        simp [State.runDraw, taken, found, hcls, State.readEntry, State.snapshot]

/-! ### The READ -/

/-- A sound read has the key and the generation of its entry (R15). -/
theorem Image.soundFor_key_gen {img : Image} {e : Entry} (sound : Image.soundFor img e = true) :
    (Image.grant img).key = e.key ∧ (Image.grant img).gen = e.gen := by
  simp only [Image.soundFor, Bool.and_eq_true, decide_eq_true_eq] at sound
  obtain ⟨⟨-, key⟩, gen⟩ := sound
  exact ⟨key, gen⟩

section Read

variable {img : Image} {e : Entry} (s : State) (cmd : Command) (snap : Snapshot) (f : Frame)

/-- An unsound read ends the DRAW with CORRUPT, its entry marked (R32, R47). -/
theorem State.drawRead_of_unsound (unsound : Image.soundFor img e = false) :
    State.drawRead s cmd snap e f img =
      State.post (State.markCorrupt s e img) cmd
        (plainResult .corrupt (.draw e.key (some (Image.gen img)) 0 none)) := by
  simp [State.drawRead, unsound]

/-- A condition other than OPEN is the outcome (R48). -/
theorem State.drawRead_of_not_open (sound : Image.soundFor img e = true) {condition : Code}
    (given : grantCondition snap.policies[(Image.grant img).cls] snap.holds[(Image.grant img).cls] snap.epoch
      (Image.grant img) = condition)
    (notOpen : condition ≠ .isOpen) :
    State.drawRead s cmd snap e f img = State.post s cmd (drawRefused condition (Image.grant img)) := by
  simp only [State.drawRead, sound, if_true, given]
  split
  · exact absurd rfl notOpen
  · rfl

section Open

variable {snap} (sound : Image.soundFor img e = true) {units : Nat} {mode : DrawMode} {p : Policy}
  (args : drawArgs cmd.args = some (units, mode)) (policy : snap.policies[(Image.grant img).cls] = .set p)
  (isOpen : grantCondition (.set p) snap.holds[(Image.grant img).cls] snap.epoch (Image.grant img) = .isOpen)
include sound args policy isOpen

/-- A class that does not permit DRAW (R49). -/
theorem State.drawRead_of_denied (denied : p.drawPermitted = false) :
    State.drawRead s cmd snap e f img = State.post s cmd (drawRefused .notPermitted (Image.grant img)) := by
  simp [-Fin.getElem_fin, State.drawRead, sound, args, policy, isOpen, denied]

variable (permitted : p.drawPermitted = true)
include permitted

/-- More units than the class's limit (R49). -/
theorem State.drawRead_of_overLimit (tooMany : p.maxUnits < units) :
    State.drawRead s cmd snap e f img = State.post s cmd (drawRefused .overLimit (Image.grant img)) := by
  simp [-Fin.getElem_fin, State.drawRead, sound, args, policy, isOpen, permitted, tooMany]

variable (within : units ≤ p.maxUnits)
include within

/-- EXACT units that do not remain (R50). -/
theorem State.drawRead_of_short (short : drawUnits mode units (Grant.remaining (Image.grant img)) = none) :
    State.drawRead s cmd snap e f img = State.post s cmd (drawRefused .short (Image.grant img)) := by
  simp [-Fin.getElem_fin, State.drawRead, sound, args, policy, isOpen, permitted, Nat.not_lt.mpr within, short]

/-- All checks passed, copy A is struck from its own count to the target (R52). -/
theorem State.drawRead_of_drawn {d : Nat} (drawn : drawUnits mode units (Grant.remaining (Image.grant img)) = some d) :
    State.drawRead s cmd snap e f img =
      State.claimStep s cmd (.drawStrikeA { grant := Image.grant img, units := d, retire := p.retireWhenSpent } e)
        (.strike f (tallyStrike tallyA (Image.grant img).countA (Grant.effective (Image.grant img) + d))) := by
  simp [-Fin.getElem_fin, State.drawRead, sound, args, policy, isOpen, permitted, Nat.not_lt.mpr within, drawn]

end Open

end Read

/-- The units asked for are drawn when they remain (R50). -/
theorem drawUnits_of_le (mode : DrawMode) {units remaining : Nat} (h : units ≤ remaining) :
    drawUnits mode units remaining = some units := if_pos h

/-- When they do not remain, EXACT draws none and UPTO what remains (R50). -/
theorem drawUnits_exact_of_lt {units remaining : Nat} (h : remaining < units) :
    drawUnits .exact units remaining = none := if_neg (Nat.not_le.mpr h)

theorem drawUnits_upto_of_lt {units remaining : Nat} (h : remaining < units) :
    drawUnits .upto units remaining = some remaining := if_neg (Nat.not_le.mpr h)

/-- Settles O28: the READ is reported to the DRAW, whose checks are made in their order. -/
theorem drawReadChecksInOrder : Obligations.DrawReadChecksInOrder := by
  intro s cmd snap e f units mode ho work hj going args img g c r condition idle ends strikes
  have run : exec .readComplete s = .next (State.drawRead (State.clearOp s) cmd snap e f img) :=
    exec_readComplete_of_job work hj ho
  refine ⟨fun unsound => ?_, fun sound => ?_⟩
  · rw [run, State.drawRead_of_unsound _ _ _ _ unsound, State.post_of_not_pending (by exact going)]
    rfl
  · have refused {outcome : Code}
        (h : State.drawRead (State.clearOp s) cmd snap e f img =
          State.post (State.clearOp s) cmd (drawRefused outcome g)) :
        ends outcome := by
      obtain ⟨key, gen⟩ := Image.soundFor_key_gen sound
      have result : drawRefused outcome g = plainResult outcome (.draw e.key (some e.gen) 0 (some r)) := by
        rw [← key, ← gen]
        rfl
      rw [State.post_of_not_pending (by exact going), result] at h
      exact run.trans (congrArg _ h)
    refine ⟨fun notOpen => refused (State.drawRead_of_not_open _ cmd snap f sound rfl notOpen),
      fun p meetsOpen policy => ?_⟩
    have isOpen : grantCondition (.set p) snap.holds[g.cls] snap.epoch g = .isOpen := policy ▸ meetsOpen
    have struck {d : Nat} (permitted : p.drawPermitted = true) (within : units ≤ p.maxUnits)
        (drawn : drawUnits mode units r = some d) : strikes d p := by
      have begun := State.drawRead_of_drawn (State.clearOp s) cmd f sound args policy isOpen permitted within drawn
      rw [State.claimStep_clearOp s (op := .strike f .foreground (tallyStrike tallyA g.countA (c + d))) rfl] at begun
      exact run.trans (congrArg _ begun)
    refine ⟨fun denied => refused (State.drawRead_of_denied _ cmd f sound args policy isOpen denied),
      fun permitted tooMany => refused (State.drawRead_of_overLimit _ cmd f sound args policy isOpen permitted tooMany),
      fun permitted within => ⟨fun enough => struck permitted within (drawUnits_of_le mode enough),
        fun short exact => refused ?_, fun short upto => ?_⟩⟩
    · subst exact
      exact State.drawRead_of_short _ cmd f sound args policy isOpen permitted within (drawUnits_exact_of_lt short)
    · subst upto
      exact struck permitted within (drawUnits_upto_of_lt short)

/-! ### The read-back and the strikes -/

section ReadBack

variable {img : Image} {e : Entry} (s : State) (cmd : Command) (d : Drawing)

/-- The read-back, unsound, ends the DRAW with its entry marked (R32, R56). -/
theorem State.drawReadBack_of_unsound (unsound : Image.soundFor img e = false) :
    State.drawReadBack s cmd d e img =
      State.post (State.markCorrupt s e img) cmd
        { outcome := .arrayFault
          flags := { degraded := true }
          payload := .draw e.key (some (Image.gen img)) d.units none } := by
  simp [State.drawReadBack, unsound]

/-- The read-back, sound, tells what was drawn and what remains (R56). -/
theorem State.drawReadBack_of_sound (sound : Image.soundFor img e = true) :
    State.drawReadBack s cmd d e img =
      State.post s cmd
        { outcome := .arrayFault
          flags :=
            { degraded := true
              skewRepaired :=
                (d.grant.countA < Drawing.start d && Drawing.start d ≤ (Image.grant img).countA) ||
                  (d.grant.countB < Drawing.start d && Drawing.start d ≤ (Image.grant img).countB) }
          payload :=
            .draw e.key (some e.gen) (Grant.effective (Image.grant img) - Drawing.start d)
              (some (Grant.remaining (Image.grant img))) } := by
  obtain ⟨-, gen⟩ := Image.soundFor_key_gen sound
  simp [State.drawReadBack, sound, gen]

end ReadBack

section StruckB

variable {s : State} (cmd : Command) (d : Drawing) (e : Entry) {verifiedA verifiedB : Bool} (f : Frame)

/-- Both strikes failed: the frame is read back (R56). -/
theorem State.drawStruckB_of_failed (idle : s.ctrl.op = none) :
    State.drawStruckB s cmd d e false f false = State.wentOn s cmd (.drawReadBack d e) (.read f) :=
  State.claimStep_of_idle idle rfl cmd (.drawReadBack d e)

variable (verified : (!verifiedA && !verifiedB) = false)
include verified

/-- Units remain, or the class does not retire when spent: the DRAW is DONE (R54, R55). -/
theorem State.drawStruckB_of_left (left : d.grant.allowance - Drawing.target d ≠ 0 ∨ d.retire = false) :
    State.drawStruckB s cmd d e verifiedA f verifiedB =
      State.post s cmd (Drawing.done d (Drawing.flags d verifiedA verifiedB false (!(verifiedA && verifiedB)))) := by
  rcases left with remains | stays
  · simp [State.drawStruckB, verified, remains]
  · simp [State.drawStruckB, verified, stays]

/-- Nothing remains and the class retires when spent: the RETIRED strike of bits 5 and 4 begins (R58, log
entry 17). -/
theorem State.drawStruckB_of_spent (idle : s.ctrl.op = none) (spent : d.grant.allowance - Drawing.target d = 0)
    (retire : d.retire = true) :
    State.drawStruckB s cmd d e verifiedA f verifiedB =
      State.wentOn s cmd
        (.retiredStrike
          { key := e.key
            retired := Drawing.done d (Drawing.flags d verifiedA verifiedB true (!(verifiedA && verifiedB)))
            fallback := Drawing.done d (Drawing.flags d verifiedA verifiedB true true)
            lost := Drawing.done d (Drawing.flags d verifiedA verifiedB true true) })
        (.strike f .foreground (markerStrike 0x30)) := by
  simp only [State.drawStruckB, verified, spent, retire, State.retire]
  exact State.claimStep_of_idle idle rfl cmd _

end StruckB

/-- Settles O29: each completion is reported to the DRAW. -/
theorem drawStrikesComplete : Obligations.DrawStrikesComplete := by
  refine ⟨?_, ?_⟩
  · intro s cmd d e f ho work going hj img g c idle
    have run : exec .readComplete s = .next (State.drawReadBack (State.clearOp s) cmd d e img) :=
      exec_readComplete_of_job work hj ho
    refine ⟨fun sound => ?_, fun unsound => ?_⟩
    · rw [run, State.drawReadBack_of_sound _ _ _ sound, State.post_of_not_pending (by exact going)]
      rfl
    · rw [run, State.drawReadBack_of_unsound _ _ _ unsound, State.post_of_not_pending (by exact going)]
      rfl
  · intro s cmd d e f what stuck ho grant work going m verified c t struck
    have run {j : Job} (hj : s.engine.job = some j) :
        exec (.strikeComplete stuck) s =
          .next (State.engineStruck (State.setArray (State.clearOp s) m) j f verified) := by
      rw [exec_strikeComplete_of_job work hj ho stuck rfl rfl, State.systemFailure_of_grant grant]
    refine ⟨fun hj => ?_, fun verifiedA hj => ?_⟩
    · rw [run hj]
      exact congrArg _ (State.claimStep_of_idle (s := State.setArray (State.clearOp s) m) rfl rfl cmd _)
    · intro flags
      have begun := run hj
      refine ⟨fun failedA failedB => ?_, fun either => ?_⟩
      · rw [begun, failedA, failedB]
        exact congrArg _ (State.drawStruckB_of_failed cmd d e f rfl)
      · have one : (!verifiedA && !verified) = false := by rcases either with h | h <;> simp [h]
        refine ⟨fun left => ?_, ?_⟩
        · refine begun.trans (congrArg _ ((State.drawStruckB_of_left cmd d e f one left).trans ?_))
          rw [State.post_of_not_pending (by exact going)]
          rfl
        · intro spent retire retired
          have target : d.grant.allowance - Drawing.target d = 0 := spent
          refine begun.trans (congrArg _ ((State.drawStruckB_of_spent cmd d e f one rfl target retire).trans ?_))
          simp only [Drawing.done, target]
          rfl

end Sys2Proof.Machine
end

section
/-! The dispatches that lead to a new record (R65 to R77): ISSUE with its arguments, TOPUP with its arguments, and MOVE. -/

namespace Sys2Proof.Machine

/-! ### Arguments -/

/-- A window may be written when it is absent, or opens before it closes (R11). -/
theorem windowOk_iff (window : Option Window) :
    windowOk window = true ↔ ∀ w : Window, window = some w → w.opens.toNat < w.closes.toNat := by
  cases window <;> simp [windowOk]

/-- A class byte above 15 names no class (R10). -/
theorem classOf_eq_none {b : Byte} (h : 16 ≤ b.toNat) : classOf b = none := dif_neg (Nat.not_lt.mpr h)

theorem classOf_eq_some {b : Byte} {k : ClassNo} (h : b.toNat = k.val) : classOf b = some k := by
  simp [classOf, h]

section Arguments

variable {args : List Byte}

/-- ISSUE's arguments other than its class lie in their ranges (R69). -/
def IssueInRange (args : List Byte) : Prop :=
  argWord args 0 ≠ 0 ∧ argWord args 0 ≠ 0xFFFFFFFF ∧ 1 ≤ argNat16 args 5 ∧ argNat16 args 5 ≤ 1024 ∧
    (∀ w : Window, argWindow args 7 = some w → w.opens.toNat < w.closes.toNat) ∧ (argByte args 16).toNat ≤ 24

theorem issueInRange_iff :
    (validKey (argWord args 0) && 1 ≤ argNat16 args 5 && argNat16 args 5 ≤ 1024 && windowOk (argWindow args 7) &&
        (argByte args 16).toNat ≤ 24) = true ↔
      IssueInRange args := by
  simp only [Bool.and_eq_true, decide_eq_true_eq, validKey_iff, windowOk_iff, and_assoc, IssueInRange]

/-- A class above 15 is BAD_ARGUMENT (R69). -/
theorem issueRecord_of_noClass (h : classOf (argByte args 4) = none) : issueRecord args = none := by
  simp [issueRecord, h]

/-- Another argument out of its range is BAD_ARGUMENT (R69). -/
theorem issueRecord_of_out (h : ¬ IssueInRange args) : issueRecord args = none := by
  unfold issueRecord
  split
  · rfl
  · exact if_neg (mt issueInRange_iff.mp h)

/-- Arguments in range are the record ISSUE writes, of generation 0 and never topped up (R68). -/
theorem issueRecord_of_in {k : ClassNo} (cls : classOf (argByte args 4) = some k) (h : IssueInRange args) :
    issueRecord args =
      some
        { key := argWord args 0, gen := 0, cls := k, allowance := argNat16 args 5, window := argWindow args 7
          label := argBytes args 17 (argByte args 16).toNat, topups := 0 } := by
  simp only [issueRecord, cls]
  exact if_pos (issueInRange_iff.mpr h)

/-- TOPUP's arguments lie in their ranges (R74). -/
theorem topupInRange_iff :
    (1 ≤ argNat16 args 4 && argNat16 args 4 ≤ 1023 && windowOk (argWindow args 6)) = true ↔
      1 ≤ argNat16 args 4 ∧ argNat16 args 4 ≤ 1023 ∧
        ∀ w : Window, argWindow args 6 = some w → w.opens.toNat < w.closes.toNat := by
  simp only [Bool.and_eq_true, decide_eq_true_eq, windowOk_iff, and_assoc]

end Arguments

/-! ### Dispatch -/

/-- A dispatch that is due and posts a result ends its command there (R169, R172). -/
theorem exec_endsAtDispatch {s t : State} {c : Instr} {code : Byte} {cmd : Command} {rest : List Command} {r : Result}
    (due : State.dispatchDue s code cmd rest) (run : exec c s = .next t)
    (h : t = State.post (State.headLeft s rest) cmd r) : exec c s = .next (State.endedAtDispatch s cmd rest r) := by
  rw [run, h, State.post_headLeft due]

/-! ### ISSUE -/

section Issue

variable {s : State} (cmd : Command)

/-- Arguments out of range end the ISSUE (R69). -/
theorem State.runIssue_of_badArgument (h : issueRecord cmd.args = none) :
    State.runIssue s cmd = State.post s cmd (plainResult .badArgument (.issue cmd.key none none none 0)) := by
  simp [State.runIssue, h]

variable {cmd} {r : NewRecord} (given : issueRecord cmd.args = some r)
include given

/-- A class that is UNCONFIGURED has no policy (R70). -/
theorem State.runIssue_of_unconfigured (h : s.policies[r.cls] = .unconfigured) :
    State.runIssue s cmd = State.post s cmd (plainResult .noPolicy (.issue cmd.key none none none 0)) := by
  simp [-Fin.getElem_fin, State.runIssue, given, h]

/-- A class that is FAULTED (R70). -/
theorem State.runIssue_of_faulted (h : s.policies[r.cls] = .faulted) :
    State.runIssue s cmd = State.post s cmd (plainResult .policyFault (.issue cmd.key none none none 0)) := by
  simp [-Fin.getElem_fin, State.runIssue, given, h]

variable {p : Policy} (policy : s.policies[r.cls] = .set p)
include policy

/-- A class that requires a window, and none given (R70). -/
theorem State.runIssue_of_windowMissing (required : p.windowRequired = true) (absent : r.window = none) :
    State.runIssue s cmd = State.post s cmd (plainResult .notPermitted (.issue cmd.key none none none 0)) := by
  simp [-Fin.getElem_fin, State.runIssue, given, policy, required, absent]

variable (passes : (p.windowRequired && r.window.isNone) = false)
include passes

/-- A key the index holds already (R70). -/
theorem State.runIssue_of_keyExists {e : Entry} (found : findEntry s.index r.key = some e) :
    State.runIssue s cmd = State.post s cmd (plainResult .keyExists (.issue cmd.key none (some e.gen) none 0)) := by
  simp [-Fin.getElem_fin, State.runIssue, given, policy, passes, found]

/-- All checks passed, the ISSUE takes a frame (R70, R71). -/
theorem State.runIssue_of_newKey (absent : findEntry s.index r.key = none) :
    State.runIssue s cmd = State.take s cmd { record := r, failed := 0, old := none } := by
  simp [-Fin.getElem_fin, State.runIssue, given, policy, passes, absent]

end Issue

/-- Settles O18: each case is the first step of the dispatch that is due. -/
theorem issueDispatch : Obligations.IssueDispatch := by
  refine ⟨fun args o => ofNat_beNat_quad _ _ _ _, fun args => ?_, fun s cmd rest due => ?_⟩
  · intro key allowance length window inRange
    exact ⟨fun above => issueRecord_of_noClass (classOf_eq_none above), issueRecord_of_out,
      fun k cls h => issueRecord_of_in (classOf_eq_some cls) h⟩
  · intro ends
    have run : exec .issue s = .next (State.runIssue (State.headLeft s rest) cmd) :=
      congrArg _ (State.dispatch_of_due due State.runIssue)
    have ended {r : Result} := exec_endsAtDispatch (r := r) due run
    refine ⟨fun bad => ended (State.runIssue_of_badArgument cmd bad), fun r given =>
      ⟨fun status => ended (State.runIssue_of_unconfigured given status),
        fun status => ended (State.runIssue_of_faulted given status), fun p policy =>
        ⟨fun required absent => ended (State.runIssue_of_windowMissing given policy required absent), fun window => ?_⟩⟩⟩
    have passes : (p.windowRequired && r.window.isNone) = false := by
      rcases window with optional | present
      · simp [optional]
      · simp [Option.isNone_eq_false_iff.mpr (Option.isSome_iff_ne_none.mpr present)]
    refine ⟨fun e found =>
      ended (State.runIssue_of_keyExists (s := State.headLeft s rest) given policy passes found),
      fun f free absent pool => ?_⟩
    have taken := (State.runIssue_of_newKey (s := State.headLeft s rest) given policy passes absent).trans
      (State.take_of_free (s := State.headLeft s rest) pool cmd _)
    exact State.dispatchClaims_of_claimStep rfl rfl (run.trans (congrArg _ taken))

/-! ### TOPUP and MOVE -/

/-- Settles O20: each case is the first step of the dispatch that is due. -/
theorem topupAndMoveDispatch : Obligations.TopupAndMoveDispatch := by
  refine ⟨fun args => ?_, fun s cmd rest => ?_⟩
  · intro units window inRange
    exact ⟨fun out => if_neg (mt topupInRange_iff.mp out), fun h => if_pos (topupInRange_iff.mpr h)⟩
  · refine ⟨fun due => ?_, fun due => ?_⟩
    · have run : exec .topup s = .next (State.runTopup (State.headLeft s rest) cmd) :=
        congrArg _ (State.dispatch_of_due due State.runTopup)
      refine ⟨fun bad => exec_endsAtDispatch due run ?_, fun good => ?_⟩
      · simp [State.runTopup, bad, relocationBare, plainResult]
      · obtain ⟨given, taken⟩ := Option.ne_none_iff_exists'.mp good
        refine ⟨fun absent => exec_endsAtDispatch due run ?_, fun e found =>
          ⟨fun corrupt => exec_endsAtDispatch due run ?_, fun live => ?_⟩⟩
        · simp [State.runTopup, taken, absent, relocationBare, plainResult]
        · simp [State.runTopup, taken, found, corrupt, relocationBare, plainResult]
        · obtain ⟨cls, hcls⟩ := Option.ne_none_iff_exists'.mp live
          refine State.dispatchClaims_of_claimStep rfl rfl (run.trans ?_)
          simp [State.runTopup, taken, found, hcls, State.readEntry, State.snapshot]
    · have run : exec .move s = .next (State.runMove (State.headLeft s rest) cmd) :=
        congrArg _ (State.dispatch_of_due due State.runMove)
      refine ⟨fun absent => exec_endsAtDispatch due run ?_, fun e found =>
        ⟨fun corrupt => exec_endsAtDispatch due run ?_, fun live => ?_⟩⟩
      · simp [State.runMove, absent, relocationBare, plainResult]
      · simp [State.runMove, found, corrupt, relocationBare, plainResult]
      · obtain ⟨cls, hcls⟩ := Option.ne_none_iff_exists'.mp live
        refine State.dispatchClaims_of_claimStep rfl rfl (run.trans ?_)
        simp [State.runMove, found, hcls, State.readEntry]

end Sys2Proof.Machine
end

section
/-! The strikes of a new record (R66, R67, R134, R135), and the end of ISSUE's writing (R28, R71). -/

namespace Sys2Proof.Machine

/-! ### A strike of the new frame -/

section NewFrame

variable {s : State} {cmd : Command} {w : Writing} {f : Frame} {what : Strike} {stuck : FrameBits}

/-- The strikes a new record is written by, in their order: OPENING, header and body, LIVE (R66). -/
inductive EngineStep.Writes (w : Writing) : EngineStep → Prop
  | opening : EngineStep.Writes w (.openingStrike w)
  | body : EngineStep.Writes w (.bodyStrike w)
  | live : EngineStep.Writes w (.liveStrike w)

/-- A strike of the new frame failed: nothing is inserted and the frame's mark is struck (R67, R134). -/
theorem State.engineStruck_of_failed {step : EngineStep} (writes : EngineStep.Writes w step) (s : State) (cmd : Command)
    (f : Frame) :
    State.engineStruck s { cmd := cmd, step := step } f false = State.newFrameFailed s cmd w f := by
  cases writes <;> rfl

variable (work : s.mount.work = none) (ho : s.ctrl.op = some (.strike f .foreground what)) (grant : 3 ≤ f.val)
include work ho grant

/-- A completed strike of a grant frame goes to the command in progress, with no FAULT_EVENT (R110, R135). -/
theorem exec_strikeComplete_of_grant {j : Job} (hj : s.engine.job = some j) {verified : Bool}
    (hv : Strike.verifies what
      (Memory.image (Memory.strike s.array f (Strike.intended what) stuck) f) = verified) :
    exec (.strikeComplete stuck) s =
      .next
        (State.engineStruck (State.clearOp { s with array := Memory.strike s.array f (Strike.intended what) stuck }) j f
          verified) := by
  rw [exec_strikeComplete_of_job work hj ho stuck rfl hv, State.systemFailure_of_grant grant]
  rfl

/-- After a failed strike of the new frame the strike of its mark in frame 2 begins (R67, R134). -/
theorem exec_strikeComplete_of_newFrameFailed {step : EngineStep} (writes : EngineStep.Writes w step)
    (hj : s.engine.job = some { cmd := cmd, step := step })
    (failed : Strike.verifies what
      (Memory.image (Memory.strike s.array f (Strike.intended what) stuck) f) = false) :
    exec (.strikeComplete stuck) s =
      .next
        (State.wentOn { s with array := Memory.strike s.array f (Strike.intended what) stuck } cmd (.newFrameMark f w)
          (.strike 2 .foreground (markStrike f))) := by
  rw [exec_strikeComplete_of_grant work ho grant hj failed, State.engineStruck_of_failed writes]
  exact congrArg _ (State.claimStep_clearOp _ rfl cmd _)

end NewFrame

/-! ### The mark of a failed new frame -/

/-- The place of a frame after its mark strike: the bad-frame map, or after a failure the quarantine set (R134, R135). -/
theorem FramePools.afterMark_eq (p : FramePools) (f : Frame) (verified : Bool) :
    FramePools.afterMark p f verified =
      { p with
          bad := if verified then insertFrame f p.bad else p.bad
          quarantine := if verified then p.quarantine else insertFrame f p.quarantine } := by
  cases verified <;> rfl

/-- Fewer than three frames failed: a further take (R67). -/
theorem State.newFrameReleased_of_lt (s : State) (cmd : Command) {w : Writing} (f : Frame) (verified : Bool)
    (h : w.failed < 2) :
    State.newFrameReleased s cmd w f verified =
      State.take (State.setHeld (State.setPools s (FramePools.afterMark s.pools f verified)) none) cmd
        { w with failed := w.failed + 1 } :=
  if_pos (Nat.succ_lt_succ h)

/-- The third frame failed: the command ends with ARRAY_FAULT (R67). -/
theorem State.newFrameReleased_of_le (s : State) (cmd : Command) {w : Writing} (f : Frame) (verified : Bool)
    (h : 2 ≤ w.failed) :
    State.newFrameReleased s cmd w f verified =
      State.post (State.setHeld (State.setPools s (FramePools.afterMark s.pools f verified)) none) cmd
        (Writing.failure { w with failed := w.failed + 1 } .arrayFault) :=
  if_neg (Nat.not_lt.mpr (Nat.succ_le_succ h))

/-- Settles O31: each completion is reported to the command, whose step says what follows. -/
theorem newRecordStrikesComplete : Obligations.NewRecordStrikesComplete := by
  refine ⟨fun e index => ⟨fun d => mem_insertEntry, pairwise_insertEntry⟩, fun s cmd w what stuck work going => ⟨?_, ?_⟩⟩
  · intro f ho grant m struck fails leadsTo
    have failing {step : EngineStep} (writes : EngineStep.Writes w step)
        (hj : s.engine.job = some { cmd := cmd, step := step }) : fails :=
      exec_strikeComplete_of_newFrameFailed work ho grant writes hj
    have verified {j : Job} (hj : s.engine.job = some j) (hv : Strike.verifies what (Memory.image m f) = true) :
        exec (.strikeComplete stuck) s = .next (State.engineStruck (State.clearOp struck) j f true) :=
      exec_strikeComplete_of_grant work ho grant hj hv
    refine ⟨fun hj => ⟨failing .opening hj, fun hv => ?_⟩, fun hj => ⟨failing .body hj, fun hv => ?_⟩,
      fun hj => ⟨failing .live hj, fun o old hv => ?_, fun old hv => ?_⟩⟩
    · exact (verified hj hv).trans (congrArg _ (State.claimStep_clearOp struck rfl cmd _))
    · exact (verified hj hv).trans (congrArg _ (State.claimStep_clearOp struck rfl cmd _))
    · rw [verified hj hv]
      simp only [State.engineStruck, State.newFrameLive, if_true, old]
      exact congrArg _ (State.claimStep_clearOp struck rfl cmd _)
    · rw [verified hj hv]
      simp only [State.engineStruck, State.newFrameLive, if_true, old, Writing.success]
      rw [State.post_of_not_pending (by exact going)]
      rfl
  · intro f ho hj m verified released
    have run : exec (.strikeComplete stuck) s =
        .next (State.newFrameReleased (State.systemFailure (State.setArray (State.clearOp s) m) 2 verified) cmd w f
          verified) := exec_strikeComplete_of_job work hj ho stuck rfl rfl
    rw [State.systemFailure_eq] at run
    refine ⟨fun fewer => ?_, fun third => ?_⟩
    · refine State.takesFrame_of_take rfl going ?_
      rw [run, State.newFrameReleased_of_lt _ _ _ _ fewer, FramePools.afterMark_eq]
      rfl
    · rw [run, State.newFrameReleased_of_le _ _ _ _ third, FramePools.afterMark_eq,
        State.post_of_not_pending (by exact going)]
      simp only [Writing.failure]
      cases w.old <;> rfl

end Sys2Proof.Machine
end

section
/-! The READ of TOPUP, of MOVE and of REVOKE (R75, R77, R83 to R85): the checks in their order, and what follows them. -/

namespace Sys2Proof.Machine

/-! ### TOPUP and MOVE -/

section Relocation

variable {img : Image} {e : Entry} (s : State) (cmd : Command) (snap : Snapshot) (f : Frame)

/-- An unsound read ends the TOPUP with CORRUPT (R74). -/
theorem State.topupRead_of_unsound (unsound : Image.soundFor img e = false) :
    State.topupRead s cmd snap e f img = State.relocationCorrupt s cmd e img := by
  simp [State.topupRead, unsound]

/-- An unsound read ends the MOVE with CORRUPT (R77). -/
theorem State.moveRead_of_unsound (unsound : Image.soundFor img e = false) :
    State.moveRead s cmd e f img = State.relocationCorrupt s cmd e img := by
  simp [State.moveRead, unsound]

variable (sound : Image.soundFor img e = true)
include sound

/-- The results after a sound read carry the old grant (R15, R80). -/
theorem relocationRefused_of_sound (outcome : Code) :
    relocationRefused outcome f (Image.grant img) =
      { outcome := outcome, flags := {}
        payload :=
          .relocation e.key (some f) (some e.gen) none (some (Grant.remaining (Image.grant img)))
            (some (Image.grant img).topups) 0 } := by
  obtain ⟨key, gen⟩ := Image.soundFor_key_gen sound
  rw [relocationRefused, key, gen, plainResult]

/-- Nothing remains to be moved (R77). -/
theorem State.moveRead_of_spent (spent : Grant.remaining (Image.grant img) = 0) :
    State.moveRead s cmd e f img = State.post s cmd (relocationRefused .spent f (Image.grant img)) := by
  simp [State.moveRead, sound, spent]

/-- Units remain: MOVE takes a frame for them (R77). -/
theorem State.moveRead_of_left (left : Grant.remaining (Image.grant img) ≠ 0) :
    State.moveRead s cmd e f img =
      State.take s cmd
        { record := moveRecord (Image.grant img), failed := 0, old := some (oldGrant f (Image.grant img)) } := by
  simp [State.moveRead, sound, left]

variable {snap} {units : Nat} {window : Option Window} (args : topupArgs cmd.args = some (units, window))
include args

/-- A class with no policy that stands permits no TOPUP (R75). -/
theorem State.topupRead_of_noPolicy
    (h : snap.policies[(Image.grant img).cls] = .unconfigured ∨ snap.policies[(Image.grant img).cls] = .faulted) :
    State.topupRead s cmd snap e f img = State.post s cmd (relocationRefused .notPermitted f (Image.grant img)) := by
  rcases h with h | h <;> simp [-Fin.getElem_fin, State.topupRead, sound, args, h]

variable {p : Policy} (policy : snap.policies[(Image.grant img).cls] = .set p)
include policy

/-- A class whose policy does not permit TOPUP (R75). -/
theorem State.topupRead_of_denied (denied : p.topupPermitted = false) :
    State.topupRead s cmd snap e f img = State.post s cmd (relocationRefused .notPermitted f (Image.grant img)) := by
  simp [-Fin.getElem_fin, State.topupRead, sound, args, policy, denied]

variable (permitted : p.topupPermitted = true)
include permitted

/-- The top-up count, or the units, at their limit (R75). -/
theorem State.topupRead_of_limit
    (h : (Image.grant img).topups = 255 ∨ 1024 < Grant.remaining (Image.grant img) + units) :
    State.topupRead s cmd snap e f img = State.post s cmd (relocationRefused .limit f (Image.grant img)) := by
  by_cases count : (Image.grant img).topups = 255
  · simp [-Fin.getElem_fin, State.topupRead, sound, args, policy, permitted, count]
  · simp [-Fin.getElem_fin, State.topupRead, sound, args, policy, permitted, count, h.resolve_left count]

/-- All checks passed, the TOPUP takes a frame (R76). -/
theorem State.topupRead_of_within (count : (Image.grant img).topups ≠ 255)
    (total : Grant.remaining (Image.grant img) + units ≤ 1024) :
    State.topupRead s cmd snap e f img =
      State.take s cmd
        { record := topupRecord (Image.grant img) units window, failed := 0
          old := some (oldGrant f (Image.grant img)) } := by
  simp [-Fin.getElem_fin, State.topupRead, sound, args, policy, permitted, count, Nat.not_lt.mpr total]

end Relocation

/-- TOPUP writes the window it is given, or with none the old one (R68). -/
theorem topupRecord_eq (g : Grant) (units : Nat) (window : Option Window) :
    topupRecord g units window =
      { key := g.key, gen := g.gen + 1, cls := g.cls, allowance := Grant.remaining g + units
        window := if window = none then g.window else window, label := g.label, topups := g.topups + 1 } := by
  cases window <;> rfl

/-- Settles O32: the READ is reported to the relocation, whose checks are made in their order. -/
theorem relocationReadChecks : Obligations.RelocationReadChecks := by
  intro s cmd e f ho work going img g r idle corrupt ends takes
  have refused {t : State} {outcome : Code} (run : exec .readComplete s = .next t)
      (sound : Image.soundFor img e = true) (h : t = State.post idle cmd (relocationRefused outcome f g)) :
      ends outcome := by
    rw [State.post_of_not_pending (by exact going), relocationRefused_of_sound f sound] at h
    exact run.trans (congrArg _ h)
  have unread {t : State} (run : exec .readComplete s = .next t) (h : t = State.relocationCorrupt idle cmd e img) :
      corrupt := by
    rw [State.relocationCorrupt, State.post_of_not_pending (by exact going)] at h
    exact run.trans (congrArg _ h)
  refine ⟨fun snap units window hj args => ?_, fun hj => ?_⟩
  · have run : exec .readComplete s = .next (State.topupRead idle cmd snap e f img) :=
      exec_readComplete_of_job work hj ho
    refine ⟨fun unsound => unread run (State.topupRead_of_unsound _ _ _ _ unsound), fun sound =>
      ⟨fun status => refused run sound (State.topupRead_of_noPolicy _ _ _ sound args status), fun p policy =>
        ⟨fun denied => refused run sound (State.topupRead_of_denied _ _ _ sound args policy denied),
          fun permitted limit => refused run sound (State.topupRead_of_limit _ _ _ sound args policy permitted limit),
          fun permitted count total => State.takesFrame_of_take rfl going ?_⟩⟩⟩
    rw [run, State.topupRead_of_within _ _ _ sound args policy permitted count total, topupRecord_eq]
    rfl
  · have run : exec .readComplete s = .next (State.moveRead idle cmd e f img) := exec_readComplete_of_job work hj ho
    refine ⟨fun unsound => unread run (State.moveRead_of_unsound _ _ _ unsound), fun sound =>
      ⟨fun spent => refused run sound (State.moveRead_of_spent _ _ _ sound spent),
        fun left => State.takesFrame_of_take rfl going ?_⟩⟩
    rw [run, State.moveRead_of_left _ _ _ sound (Nat.one_le_iff_ne_zero.mp left)]
    rfl

/-! ### REVOKE -/

/-- The RETIRED strike intends the bits of 7 to 4 that stand (R3, R85). -/
theorem transitionBits_retired (marker : Byte) : transitionBits .retired marker = marker &&& 0xF0 :=
  BitVec.and_comm _ _

section Revoke

variable {img : Image} {e : Entry} (s : State) (cmd : Command) (snap : Snapshot) (f : Frame)

/-- A corrupt entry: no policy is consulted (R83). -/
theorem State.revokeRead_of_corrupt (corrupt : e.cls = none) :
    State.revokeRead s cmd snap e f img =
      State.retire s cmd (revokeEnding e.key f e.gen true) f (img 0 &&& 0xF0) := by
  simp [State.revokeRead, corrupt, transitionBits_retired]

variable (live : e.cls ≠ none)
include live

/-- An unsound read: the entry is marked corrupt, and no policy is consulted (R32, R83). -/
theorem State.revokeRead_of_unsound (unsound : Image.soundFor img e = false) :
    State.revokeRead s cmd snap e f img =
      State.retire (State.markCorrupt s e img) cmd (revokeEnding e.key f (Image.gen img) true) f (img 0 &&& 0xF0) := by
  obtain ⟨cls, hcls⟩ := Option.ne_none_iff_exists'.mp live
  simp [State.revokeRead, hcls, unsound, transitionBits_retired]

variable {snap} (sound : Image.soundFor img e = true)
include sound

/-- The policy permits the REVOKE (R84, R85). -/
theorem State.revokeRead_of_permitted {p : Policy} (policy : snap.policies[(Image.grant img).cls] = .set p)
    (permitted : p.revokePermitted = true) :
    State.revokeRead s cmd snap e f img =
      State.retire s cmd (revokeEnding e.key f e.gen false) f (img 0 &&& 0xF0) := by
  obtain ⟨cls, hcls⟩ := Option.ne_none_iff_exists'.mp live
  obtain ⟨-, gen⟩ := Image.soundFor_key_gen sound
  simp [-Fin.getElem_fin, State.revokeRead, hcls, sound, policy, permitted, gen, transitionBits_retired]

/-- The class is not SET, or its policy does not permit the REVOKE (R84). -/
theorem State.revokeRead_of_denied
    (denied : ∀ p : Policy, snap.policies[(Image.grant img).cls] = .set p → p.revokePermitted = false) :
    State.revokeRead s cmd snap e f img =
      State.post s cmd (plainResult .notPermitted (.revoke e.key (some f) (some e.gen))) := by
  obtain ⟨cls, hcls⟩ := Option.ne_none_iff_exists'.mp live
  obtain ⟨-, gen⟩ := Image.soundFor_key_gen sound
  simp only [State.revokeRead, hcls, sound, if_true, gen]
  split
  · next p policy => simp [denied p policy]
  · rfl

end Revoke

/-- Bits stand: the RETIRED strike of them begins (R85). -/
theorem State.retire_of_standing {s : State} (idle : s.ctrl.op = none) (cmd : Command) (e : Ending) (f : Frame)
    {bits : Byte} (standing : bits ≠ 0) :
    State.retire s cmd e f bits = State.wentOn s cmd (.retiredStrike e) (.strike f .foreground (markerStrike bits)) := by
  rw [State.retire, if_neg standing]
  exact State.claimStep_of_idle idle rfl cmd _

/-- With no bit to strike the entry is removed and the frame joins the tail of the reclaim queue at once (R85, R110). -/
theorem State.retire_of_struck {s : State} (going : s.intake.restartPending = false) (cmd : Command) (e : Ending)
    (f : Frame) :
    State.retire s cmd e f 0 =
      State.posted
        { s with
            index := removeEntry e.key s.index
            pools := { s.pools with reclaim := s.pools.reclaim ++ [f] } }
        cmd e.retired :=
  State.post_of_not_pending (by exact going) cmd e.retired

/-- Settles O34: the READ is reported to the REVOKE, which takes the corrupt or the sound path. -/
theorem revokeReadTakesPath : Obligations.RevokeReadTakesPath := by
  intro s cmd snap e f ho work going hj img cls idle bits ended marked retires
  have run : exec .readComplete s = .next (State.revokeRead idle cmd snap e f img) :=
    exec_readComplete_of_job work hj ho
  have retiring {gen : Gen} {corrupt : Bool} {index : List Entry}
      (h : State.revokeRead idle cmd snap e f img =
        State.retire { idle with index := index } cmd (revokeEnding e.key f gen corrupt) f bits) :
      retires gen corrupt index := by
    rw [h] at run
    refine ⟨fun standing => ?_, fun struck => ?_⟩
    · rw [run, State.retire_of_standing rfl cmd _ f standing]
      rfl
    · rw [run, struck, State.retire_of_struck (by exact going)]
      rfl
  refine ⟨fun corrupt => retiring (State.revokeRead_of_corrupt _ _ _ _ corrupt),
    fun live unsound => retiring (State.revokeRead_of_unsound _ _ _ _ live unsound),
    fun live sound =>
      ⟨fun p policy permitted => retiring (State.revokeRead_of_permitted _ _ _ live sound policy permitted),
        fun denied => ?_⟩⟩
  rw [run, State.revokeRead_of_denied _ _ _ live sound denied, State.post_of_not_pending (by exact going)]
  rfl

end Sys2Proof.Machine
end

section
/-! A policy stands (R94) while the command in progress goes on: only CONFIGURE CLASS of its class gives it anew, and only the
clearing for a RESTART takes it from the working copy (R96, R179). -/

namespace Sys2Proof.Machine

-- As in the laws: proofs elaborated one after another keep the compile within its memory limit.
set_option Elab.async false

/-! ### One class -/

/-- Setting one class leaves the others. -/
theorem getElem_setClass {α : Type} (v : Vector α 16) (k j : ClassNo) (x : α) :
    (setClass v k x)[j] = if j = k then x else v[j] := by
  simp [setClass, Vector.getElem_set, Fin.ext_iff, eq_comm]

theorem State.getElem_clearForRestart_policies (s : State) (k : ClassNo) :
    (State.clearForRestart s).policies[k] = .unconfigured := by
  simp [State.clearForRestart, State.cleared, State.reset]

/-- Class `k` has in `t` the status it has in `s`, or became UNCONFIGURED by the clearing for a RESTART pending in `s` (R179). -/
def State.PolicyStandsIn (k : ClassNo) (t s : State) : Prop :=
  t.policies[k] = s.policies[k] ∨ t.policies[k] = .unconfigured ∧ s.intake.restartPending = true

/-! ### Posting, takes and what follows them -/

section Engine

variable (k : ClassNo) (s : State) (cmd : Command)

theorem State.post_policyStands (r : Result) : State.PolicyStandsIn k (State.post s cmd r) s := by
  unfold State.post
  split
  · next pending => exact .inr ⟨State.getElem_clearForRestart_policies s k, pending⟩
  · exact .inl rfl

theorem State.demandNext_policyStands (w : Writing) : State.PolicyStandsIn k (State.demandNext s cmd w) s := by
  unfold State.demandNext
  split
  · exact .inl rfl
  · exact State.post_policyStands k s cmd _

theorem State.take_policyStands (w : Writing) : State.PolicyStandsIn k (State.take s cmd w) s := by
  unfold State.take State.demandReclaim
  repeat' split
  case h_4 => exact State.demandNext_policyStands k s cmd w
  all_goals exact .inl rfl

theorem State.newFrameReleased_policyStands (w : Writing) (f : Frame) (verified : Bool) :
    State.PolicyStandsIn k (State.newFrameReleased s cmd w f verified) s := by
  unfold State.newFrameReleased
  dsimp only
  split
  · exact State.take_policyStands k _ cmd _
  · exact State.post_policyStands k _ cmd _

theorem State.newFrameLive_policyStands (w : Writing) (f : Frame) :
    State.PolicyStandsIn k (State.newFrameLive s cmd w f) s := by
  unfold State.newFrameLive
  split
  · exact State.post_policyStands k _ cmd _
  · exact .inl rfl

theorem State.movedDone_policyStands (w : Writing) (o : OldGrant) (new : Frame) (verified : Bool) :
    State.PolicyStandsIn k (State.movedDone s cmd w o new verified) s := by
  unfold State.movedDone
  dsimp only
  split
  · exact State.post_policyStands k _ cmd _
  · exact .inl rfl

theorem State.retiredDone_policyStands (e : Ending) (f : Frame) (verified : Bool) :
    State.PolicyStandsIn k (State.retiredDone s cmd e f verified) s := by
  unfold State.retiredDone
  dsimp only
  split
  · exact State.post_policyStands k _ cmd _
  · exact .inl rfl

theorem State.retire_policyStands (e : Ending) (f : Frame) (bits : Byte) :
    State.PolicyStandsIn k (State.retire s cmd e f bits) s := by
  unfold State.retire
  split
  · exact State.retiredDone_policyStands k s cmd e f true
  · exact .inl rfl

theorem State.purgeNext_policyStands (members : List Frame) (moved failed : Nat) :
    State.PolicyStandsIn k (State.purgeNext s cmd members moved failed) s := by
  unfold State.purgeNext
  split
  · exact .inl rfl
  · exact State.post_policyStands k s cmd _

theorem State.fallbackErased_policyStands (fallback lost : Result) (f : Frame) (verified : Bool) :
    State.PolicyStandsIn k (State.fallbackErased s cmd fallback lost f verified) s := by
  unfold State.fallbackErased
  split
  · exact State.post_policyStands k _ cmd _
  · exact .inl rfl

/-! ### READs -/

theorem State.lookupRead_policyStands (snap : Snapshot) (e : Entry) (f : Frame) (img : Image) :
    State.PolicyStandsIn k (State.lookupRead s cmd snap e f img) s := by
  unfold State.lookupRead
  split <;> exact State.post_policyStands k _ cmd _

theorem State.drawRead_policyStands (snap : Snapshot) (e : Entry) (f : Frame) (img : Image) :
    State.PolicyStandsIn k (State.drawRead s cmd snap e f img) s := by
  unfold State.drawRead
  dsimp only
  repeat' split
  case h_2 => exact .inl rfl
  all_goals exact State.post_policyStands k _ cmd _

theorem State.drawReadBack_policyStands (d : Drawing) (e : Entry) (img : Image) :
    State.PolicyStandsIn k (State.drawReadBack s cmd d e img) s := by
  unfold State.drawReadBack
  split <;> exact State.post_policyStands k _ cmd _

theorem State.topupRead_policyStands (snap : Snapshot) (e : Entry) (f : Frame) (img : Image) :
    State.PolicyStandsIn k (State.topupRead s cmd snap e f img) s := by
  unfold State.topupRead
  dsimp only
  repeat' split
  case h_1.isFalse.isFalse.isFalse => exact State.take_policyStands k s cmd _
  all_goals exact State.post_policyStands k _ cmd _

theorem State.moveRead_policyStands (e : Entry) (f : Frame) (img : Image) :
    State.PolicyStandsIn k (State.moveRead s cmd e f img) s := by
  unfold State.moveRead
  dsimp only
  repeat' split
  case isTrue.isFalse => exact State.take_policyStands k s cmd _
  all_goals exact State.post_policyStands k _ cmd _

theorem State.revokeRead_policyStands (snap : Snapshot) (e : Entry) (f : Frame) (img : Image) :
    State.PolicyStandsIn k (State.revokeRead s cmd snap e f img) s := by
  unfold State.revokeRead
  dsimp only
  split
  · exact State.retire_policyStands k s cmd _ f _
  · split
    · repeat' split
      case h_1.isTrue => exact State.retire_policyStands k s cmd _ f _
      all_goals exact State.post_policyStands k s cmd _
    · exact State.retire_policyStands k _ cmd _ f _

/-! ### CONFIGURE CLASS, STRIKEs and FORMAT -/

theorem State.setStatus_policyStands {c : ClassNo} (other : k ≠ c) (status : ClassStatus) (r : Result) :
    State.PolicyStandsIn k (State.post (State.setStatus s c status) cmd r) s := by
  have same : (State.setStatus s c status).policies[k] = s.policies[k] := by
    rw [State.setStatus_policies, getElem_setClass, if_neg other]
  rw [State.PolicyStandsIn, ← same]
  exact State.post_policyStands k _ cmd r

theorem State.configureStruck_policyStands {c : ClassNo} (other : k ≠ c) (p : Policy) (verified : Bool) :
    State.PolicyStandsIn k (State.configureStruck s cmd c p verified) s := by
  unfold State.configureStruck
  split
  · exact State.setStatus_policyStands k s cmd other _ _
  · exact .inl rfl

theorem State.drawStruckB_policyStands (d : Drawing) (e : Entry) (verifiedA : Bool) (f : Frame) (verifiedB : Bool) :
    State.PolicyStandsIn k (State.drawStruckB s cmd d e verifiedA f verifiedB) s := by
  unfold State.drawStruckB
  dsimp only
  split
  · exact .inl rfl
  · split
    · exact State.retire_policyStands k s cmd _ f _
    · exact State.post_policyStands k s cmd _

@[simp] theorem State.formatSweep_policies (f : Formatting) (n : Nat) :
    (State.formatSweep s cmd f n).policies = s.policies := by
  unfold State.formatSweep
  split <;> rfl

@[simp] theorem State.formatErased_policies (f : Formatting) (g : Frame) (verified : Bool) :
    (State.formatErased s cmd f g verified).policies = s.policies := by
  unfold State.formatErased
  dsimp only
  repeat' split
  all_goals simp

@[simp] theorem State.formatMarked_policies (f : Formatting) (g : Frame) (verified : Bool) :
    (State.formatMarked s cmd f g verified).policies = s.policies := by
  unfold State.formatMarked
  split <;> simp

theorem State.formatWritten_policyStands (f : Formatting) (verified : Bool) :
    State.PolicyStandsIn k (State.formatWritten s cmd f verified) s := by
  unfold State.formatWritten
  split
  · next pending => exact .inr ⟨State.getElem_clearForRestart_policies s k, pending⟩
  · exact .inl rfl

variable {k} {j : Job}

/-- A READ of the command in progress leaves the class, but that of a CONFIGURE CLASS of it. -/
theorem State.engineRead_policyStands (other : j.step ≠ .configureRead k) (f : Frame) (img : Image) :
    State.PolicyStandsIn k (State.engineRead s j f img) s := by
  obtain ⟨cmd, step⟩ := j
  cases step <;> dsimp only [State.engineRead]
  case lookupRead snap e => exact State.lookupRead_policyStands k s cmd snap e f img
  case drawRead snap e => exact State.drawRead_policyStands k s cmd snap e f img
  case drawReadBack d e => exact State.drawReadBack_policyStands k s cmd d e img
  case topupRead snap e => exact State.topupRead_policyStands k s cmd snap e f img
  case moveRead e => exact State.moveRead_policyStands k s cmd e f img
  case revokeRead snap e => exact State.revokeRead_policyStands k s cmd snap e f img
  case configureRead c => exact State.setStatus_policyStands k s cmd (by rintro rfl; exact other rfl) _ _
  case formatMapRead fm => exact .inl (by simp)
  all_goals exact .inl rfl

/-- A STRIKE of the command in progress leaves the class, but that of a CONFIGURE CLASS of it. -/
theorem State.engineStruck_policyStands (other : ∀ q, j.step ≠ .configureStrike k q) (f : Frame) (verified : Bool) :
    State.PolicyStandsIn k (State.engineStruck s j f verified) s := by
  obtain ⟨cmd, step⟩ := j
  cases step <;> dsimp only [State.engineStruck]
  case drawStrikeB d e verifiedA => exact State.drawStruckB_policyStands k s cmd d e verifiedA f verified
  case takeMark g w => exact State.demandNext_policyStands k _ cmd w
  case openingStrike w => split <;> exact .inl rfl
  case bodyStrike w => split <;> exact .inl rfl
  case liveStrike w =>
    split
    · exact State.newFrameLive_policyStands k s cmd w f
    · exact .inl rfl
  case newFrameMark g w => exact State.newFrameReleased_policyStands k s cmd w g verified
  case movedStrike w o new => exact State.movedDone_policyStands k s cmd w o new verified
  case retiredStrike e => exact State.retiredDone_policyStands k s cmd e f verified
  case fallbackMark g fallback lost => exact State.post_policyStands k _ cmd _
  case configureStrike c p =>
    exact State.configureStruck_policyStands k s cmd (by rintro rfl; exact other p rfl) p verified
  case purgeStrike rest moved failed => exact State.purgeNext_policyStands k _ cmd rest _ _
  case formatMark g fm => exact .inl (by simp)
  case formatRecord fm => exact State.formatWritten_policyStands k s cmd fm verified
  all_goals exact .inl rfl

theorem State.engineErased_policyStands (j : Job) (f : Frame) (verified : Bool) :
    State.PolicyStandsIn k (State.engineErased s j f verified) s := by
  obtain ⟨cmd, step⟩ := j
  cases step <;> dsimp only [State.engineErased]
  case takeErase w =>
    unfold State.demandErased
    split <;> exact .inl rfl
  case fallbackErase fallback lost => exact State.fallbackErased_policyStands k s cmd fallback lost f verified
  case formatErase fm => exact .inl (by simp)
  all_goals exact .inl rfl

end Engine

end Sys2Proof.Machine
end

section
/-! A policy stands (R94) over every step outside a mount but a reset, a RESTART and a FORMAT. -/

namespace Sys2Proof.Machine

-- As in the laws: proofs elaborated one after another keep the compile within its memory limit.
set_option Elab.async false

/-! ### Reports to the command in progress, and the waiting claim -/

section Reports

variable {k : ClassNo} {s : State} (work : s.mount.work = none)
  (free : ∀ j, s.engine.job = some j → (∀ q, j.step ≠ .configureStrike k q) ∧ j.step ≠ .configureRead k)

theorem State.serveWaiting_policyStands (k : ClassNo) (s : State) : State.PolicyStandsIn k (State.serveWaiting s) s := by
  unfold State.serveWaiting
  split
  · exact .inl rfl
  · dsimp only
    split
    · exact State.take_policyStands k _ _ _
    · exact .inl rfl
  · exact .inl rfl

include work

theorem State.reportErase_policyStands (f : Frame) (verified : Bool) :
    State.PolicyStandsIn k (State.reportErase s f verified) s := by
  cases hj : s.engine.job with
  | none => exact .inl (by simp [State.reportErase, work, hj])
  | some j =>
    rw [State.reportErase_of_job work hj]
    exact State.engineErased_policyStands s j f verified

include free

theorem State.reportRead_policyStands (f : Frame) (img : Image) : State.PolicyStandsIn k (State.reportRead s f img) s := by
  cases hj : s.engine.job with
  | none => exact .inl (by simp [State.reportRead, work, hj])
  | some j =>
    rw [State.reportRead_of_job work hj]
    exact State.engineRead_policyStands s (free j hj).2 f img

theorem State.reportStrike_policyStands (f : Frame) (verified : Bool) :
    State.PolicyStandsIn k (State.reportStrike s f verified) s := by
  cases hj : s.engine.job with
  | none => exact .inl (by simp [State.reportStrike, work, hj])
  | some j =>
    rw [State.reportStrike_of_job work hj]
    exact State.engineStruck_policyStands s (free j hj).1 f verified

/-! ### The events of the array controller -/

theorem State.readComplete_policyStands : State.PolicyStandsIn k (State.readComplete s) s := by
  unfold State.readComplete
  split
  · exact State.reportRead_policyStands (s := State.clearOp s) work free _ _
  · exact .inl rfl

theorem State.strikeComplete_policyStands (stuck : FrameBits) :
    State.PolicyStandsIn k (State.strikeComplete s stuck) s := by
  unfold State.strikeComplete
  split
  · dsimp only
    rw [State.systemFailure_eq]
    split
    · exact State.reportStrike_policyStands (by exact work) (by exact free) _ _
    · unfold State.backgroundMarked
      split <;> exact State.serveWaiting_policyStands k _
  · exact .inl rfl

omit free

theorem State.eraseVerified_policyStands (claimant : Claimant) (f : Frame) :
    State.PolicyStandsIn k (State.eraseVerified s claimant f) s := by
  cases claimant with
  | foreground => exact State.reportErase_policyStands (s := State.clearOp s) work f true
  | background => exact State.serveWaiting_policyStands k _

theorem State.attemptFailed_policyStands (claimant : Claimant) (e : Erase) :
    State.PolicyStandsIn k (State.attemptFailed s claimant e) s := by
  unfold State.attemptFailed State.eraseFailed
  repeat' split
  · rw [State.systemFailure_eq]
    exact State.reportErase_policyStands (by exact work) _ _
  · exact .inl rfl
  · exact State.serveWaiting_policyStands k _
  · exact .inl rfl

theorem State.markerRetirement_policyStands (elapsed : Nat) (stuck : FrameBits) :
    State.PolicyStandsIn k (State.markerRetirement s elapsed stuck) s := by
  unfold State.markerRetirement
  dsimp only
  repeat' split
  case h_1.isTrue.isFalse => exact State.attemptFailed_policyStands (by exact work) _ _
  all_goals exact .inl rfl

theorem State.blankVerify_policyStands : State.PolicyStandsIn k (State.blankVerify s) s := by
  unfold State.blankVerify
  repeat' split
  · exact State.eraseVerified_policyStands work _ _
  · exact State.attemptFailed_policyStands work _ _
  all_goals exact .inl rfl

end Reports

theorem State.stageComplete_policies (s : State) (stage next : Stage) (elapsed : Nat) (stuck : FrameBits) :
    (State.stageComplete s stage next elapsed stuck).policies = s.policies := by
  unfold State.stageComplete
  repeat' split
  all_goals rfl

theorem State.quantum_policies (s : State) : (State.quantum s).policies = s.policies := by
  unfold State.quantum
  repeat' split
  all_goals rfl

theorem State.suspension_policyStands (k : ClassNo) (s : State) (elapsed : Nat) (undone : FrameBits) :
    State.PolicyStandsIn k (State.suspension s elapsed undone) s := by
  unfold State.suspension
  repeat' split
  case h_1.isTrue => exact State.serveWaiting_policyStands k _
  all_goals exact .inl rfl

theorem State.backgroundStart_policies (s : State) : (State.backgroundStart s).policies = s.policies := by
  unfold State.backgroundStart
  repeat' split
  all_goals rfl

theorem State.backgroundResume_policies (s : State) : (State.backgroundResume s).policies = s.policies := by
  unfold State.backgroundResume
  repeat' split
  all_goals rfl

/-! ### Dispatches -/

section Dispatches

variable {k : ClassNo}

/-- A dispatch does to a class what its first step does. -/
theorem State.dispatch_policyStands {run : State → Command → State}
    (h : ∀ t cmd, State.PolicyStandsIn k (run t cmd) t) (s : State) (code : Byte) :
    State.PolicyStandsIn k (State.dispatch s code run) s := by
  unfold State.dispatch
  split
  · exact .inl rfl
  · exact h _ _

variable (s : State) (cmd : Command)

theorem State.runIssue_policyStands : State.PolicyStandsIn k (State.runIssue s cmd) s := by
  unfold State.runIssue
  dsimp only
  split
  · exact State.post_policyStands k s cmd _
  · split
    · exact State.post_policyStands k s cmd _
    · exact State.post_policyStands k s cmd _
    · repeat' split
      case h_2 => exact State.take_policyStands k s cmd _
      all_goals exact State.post_policyStands k s cmd _

theorem State.runLookup_policyStands : State.PolicyStandsIn k (State.runLookup s cmd) s := by
  unfold State.runLookup
  repeat' split
  case h_2 => exact .inl rfl
  all_goals exact State.post_policyStands k s cmd _

theorem State.runDraw_policyStands : State.PolicyStandsIn k (State.runDraw s cmd) s := by
  unfold State.runDraw
  repeat' split
  case h_2 => exact .inl rfl
  all_goals exact State.post_policyStands k s cmd _

theorem State.runTopup_policyStands : State.PolicyStandsIn k (State.runTopup s cmd) s := by
  unfold State.runTopup
  repeat' split
  case h_2 => exact .inl rfl
  all_goals exact State.post_policyStands k s cmd _

theorem State.runMove_policyStands : State.PolicyStandsIn k (State.runMove s cmd) s := by
  unfold State.runMove
  repeat' split
  case h_2 => exact .inl rfl
  all_goals exact State.post_policyStands k s cmd _

theorem State.runRevoke_policyStands : State.PolicyStandsIn k (State.runRevoke s cmd) s := by
  unfold State.runRevoke
  split
  · exact State.post_policyStands k s cmd _
  · exact .inl rfl

theorem State.runConfigureClass_policyStands : State.PolicyStandsIn k (State.runConfigureClass s cmd) s := by
  unfold State.runConfigureClass
  dsimp only
  repeat' split
  case h_1 => exact .inl rfl
  all_goals exact State.post_policyStands k s cmd _

end Dispatches

/-! ### Resets, RESTART, and every step -/

/-- RESTART leaves a class, or makes it UNCONFIGURED (R178, R179). -/
theorem State.restart_policies (k : ClassNo) (s : State) (undone : FrameBits) :
    (State.restart s undone).1.policies[k] = s.policies[k] ∨
      (State.restart s undone).1.policies[k] = .unconfigured := by
  unfold State.restart State.takeRestart
  dsimp only
  repeat' split
  · exact .inl rfl
  · exact .inr (State.getElem_clearForRestart_policies _ k)
  · rw [State.abandon_eq]
    unfold State.serveIfFree
    split
    · exact (State.serveWaiting_policyStands k _).imp_right And.left
    · exact .inl rfl

theorem State.getElem_heldInReset_policies (s : State) (undone : FrameBits) (pins : Pins) (k : ClassNo) :
    (State.heldInReset s undone pins).policies[k] = .unconfigured := by
  simp [State.heldInReset, State.cleared, State.reset]

/-- Outside a mount and a CONFIGURE CLASS of the class every command and event but FORMAT leaves the class, or makes it
UNCONFIGURED: the clearing for a pending RESTART, a reset, or a RESTART. -/
theorem exec_policy {k : ClassNo} {s t : State} (work : s.mount.work = none)
    (free : ∀ j, s.engine.job = some j → (∀ q, j.step ≠ .configureStrike k q) ∧ j.step ≠ .configureRead k) {c : Instr}
    (formats : ∀ cut, c ≠ .format cut) (h : exec c s = .next t) :
    State.PolicyStandsIn k t s ∨
      t.policies[k] = .unconfigured ∧
        ∃ cut, c = .powerOn cut ∨ c = .resetnAssertion cut ∨ c = .powerLoss cut ∨ c = .restart cut := by
  cases link : linkCommand c with
  | true => exact .inl (.inl (by rw [(exec_linkPortOnly link h).policies]))
  | false =>
    cases c with
    | powerOn cut =>
      cases h
      exact .inr ⟨State.getElem_heldInReset_policies s cut { powered := true, resetnLow := false } k, cut, by simp⟩
    | resetnAssertion cut =>
      cases h
      unfold State.resetnAssertion
      split
      · exact .inr ⟨State.getElem_heldInReset_policies s cut _ k, cut, by simp⟩
      · exact .inl (.inl rfl)
    | powerLoss cut =>
      cases h
      unfold State.powerLoss
      split
      · exact .inr ⟨State.getElem_heldInReset_policies s cut _ k, cut, by simp⟩
      · exact .inl (.inl rfl)
    | restart cut =>
      cases h
      unfold State.immediate
      split
      · exact (State.restart_policies k s cut).imp .inl fun unset => ⟨unset, cut, by simp⟩
      · exact .inl (.inl rfl)
    | format cut => exact absurd rfl (formats cut)
    | resetnRelease =>
      cases h
      unfold State.resetnRelease
      split <;> exact .inl (.inl rfl)
    | issue => cases h; exact .inl (State.dispatch_policyStands State.runIssue_policyStands s _)
    | lookup => cases h; exact .inl (State.dispatch_policyStands State.runLookup_policyStands s _)
    | draw => cases h; exact .inl (State.dispatch_policyStands State.runDraw_policyStands s _)
    | topup => cases h; exact .inl (State.dispatch_policyStands State.runTopup_policyStands s _)
    | move => cases h; exact .inl (State.dispatch_policyStands State.runMove_policyStands s _)
    | revoke => cases h; exact .inl (State.dispatch_policyStands State.runRevoke_policyStands s _)
    | list => cases h; exact .inl (State.dispatch_policyStands (fun t cmd => State.post_policyStands k t cmd _) s _)
    | configureClass => cases h; exact .inl (State.dispatch_policyStands State.runConfigureClass_policyStands s _)
    | purgeOrphans =>
      cases h
      exact .inl (State.dispatch_policyStands (fun t cmd => State.purgeNext_policyStands k t cmd _ _ _) s _)
    | readComplete => cases h; exact .inl (State.readComplete_policyStands work free)
    | strikeComplete stuck => cases h; exact .inl (State.strikeComplete_policyStands work free stuck)
    | markerRetirement elapsed stuck => cases h; exact .inl (State.markerRetirement_policyStands work elapsed stuck)
    | bodyErase elapsed stuck => cases h; exact .inl (.inl (by rw [State.stageComplete_policies]))
    | markerErase elapsed stuck => cases h; exact .inl (.inl (by rw [State.stageComplete_policies]))
    | systemFrameErase elapsed stuck => cases h; exact .inl (.inl (by rw [State.stageComplete_policies]))
    | blankVerify => cases h; exact .inl (State.blankVerify_policyStands work)
    | quantum => cases h; exact .inl (.inl (by rw [State.quantum_policies]))
    | suspension elapsed undone => cases h; exact .inl (State.suspension_policyStands k s elapsed undone)
    | backgroundStart => cases h; exact .inl (.inl (by rw [State.backgroundStart_policies]))
    | backgroundResume => cases h; exact .inl (.inl (by rw [State.backgroundResume_policies]))
    | _ => exact absurd link nofun

/-- Settles O58: outside a mount the part does nothing by itself, and a command or event leaves the class unless it clears the
volatile state. -/
theorem setPolicyStaysUntilFormat : Obligations.SetPolicyStaysUntilFormat := by
  intro s t k p h set work free formats
  unfold step at h
  split at h
  · cases h
    rw [State.tick_of_none (by simp [work])]
    exact .inl set
  · next c rest queue =>
    rw [queue] at formats ⊢
    obtain (stands | ⟨unset, pending⟩) | ⟨unset, cut, reset⟩ :=
      exec_policy (s := { s with pending := rest }) work free (fun cut hc => formats cut (congrArg some hc)) h
    · exact .inl (stands.trans set)
    · exact .inr ⟨unset, .inl pending⟩
    · exact .inr ⟨unset, .inr ⟨cut, by simpa using reset⟩⟩

end Sys2Proof.Machine
end

section
/-! HOLD CLASS and RELEASE CLASS (R102, R103): what they do to the holds, and their answer. -/

namespace Sys2Proof.Machine

-- As in the laws: proofs elaborated one after another keep the compile within its memory limit.
set_option Elab.async false

/-- In a transaction the answer follows the byte of the time in which the argument was clocked in (R197). -/
theorem exec_changeHold_of_decoding {s : State} {captured : Byte} (h : State.decoding s captured) (cls : Byte)
    (hold : Bool) :
    exec (if hold then .holdClass cls else .releaseClass cls) s =
      .next
        (State.answered (State.changeHold s cls hold).1 captured
          (Config.misoDuringArguments s.freeUses 0 :: (State.changeHold s cls hold).2)) := by
  cases hold with
  | true => exact congrArg _ (State.immediate_of_decoding h 0x05 fun _ => State.changeHold s cls true)
  | false => exact congrArg _ (State.immediate_of_decoding h 0x06 fun _ => State.changeHold s cls false)

/-- In READY the hold of the class becomes `hold` (R102, R103). -/
theorem State.changeHold_of_ready {s : State} {cls : Byte} {k : ClassNo} (number : cls.toNat = k.val)
    (part : s.part = .ready) (hold : Bool) :
    State.changeHold s cls hold =
      ({ s with engine := { s.engine with holds := setClass s.engine.holds k hold }, freeUses := s.freeUses + 1 },
        [0x00, cls, boolByte s.engine.holds[k], boolByte hold]) := by
  simp [-Fin.getElem_fin, State.changeHold, classOf_eq_some number, part, Code.byte]

/-- Outside READY no hold changes (R102, R103). -/
theorem State.changeHold_of_not_ready {s : State} {cls : Byte} {k : ClassNo} (number : cls.toNat = k.val)
    (part : s.part ≠ .ready) (hold : Bool) :
    State.changeHold s cls hold =
      ({ s with freeUses := s.freeUses + 1 },
        [0x17, cls, boolByte s.engine.holds[k], boolByte s.engine.holds[k]]) := by
  simp [-Fin.getElem_fin, State.changeHold, classOf_eq_some number, part, Code.byte]

/-- A class above 15 has no hold (R10, log entry 9). -/
theorem State.changeHold_of_noClass (s : State) {cls : Byte} (above : 16 ≤ cls.toNat) (hold : Bool) :
    State.changeHold s cls hold =
      ({ s with freeUses := s.freeUses + 1 },
        [if s.part = .ready then 0x04 else 0x17, cls, Config.holdBeforeOfNoClass s.freeUses,
          Config.holdAfterOfNoClass s.freeUses]) := by
  simp only [State.changeHold, classOf_eq_none above, apply_ite Code.byte]
  rfl

/-- Settles O13: each case is the answer of HOLD CLASS and RELEASE CLASS to a class and a part state. -/
theorem holdAndReleaseChangeOneHold : Obligations.HoldAndReleaseChangeOneHold := by
  refine ⟨fun holds k j hold => getElem_setClass holds k j hold, ?_⟩
  intro cls captured s hold decoding command answers
  have run := exec_changeHold_of_decoding decoding cls hold
  refine ⟨fun k number => ⟨fun part => ?_, fun part => ?_⟩, fun above => ?_⟩
  · rw [State.changeHold_of_ready number part] at run
    exact run
  · rw [State.changeHold_of_not_ready number part] at run
    exact run
  · rw [State.changeHold_of_noClass s above] at run
    exact run

end Sys2Proof.Machine
end

section
/-! CONFIGURE CLASS (R96, R97, R98): its arguments, its dispatch, its strike and the READ after a failed strike. -/

namespace Sys2Proof.Machine

-- As in the laws: proofs elaborated one after another keep the compile within its memory limit.
set_option Elab.async false

/-! ### Arguments -/

section Arguments

/-- A yes/no byte that is H'00 or H'01 says yes exactly when it is H'01 (R196). -/
theorem yesNo_of_bit {b : Byte} (h : b = 0 ∨ b = 1) : yesNo b = some (decide (b = 1)) := by
  rcases h with rfl | rfl <;> rfl

theorem yesNo_eq_some {b : Byte} {yes : Bool} (h : yesNo b = some yes) : b = 0 ∨ b = 1 := by
  unfold yesNo at h
  split at h
  · next zero => exact .inl zero
  · split at h
    · next one => exact .inr one
    · cases h

variable {args : List Byte}

/-- CONFIGURE CLASS's arguments other than its class lie in their ranges (R96). -/
def ConfigureInRange (args : List Byte) : Prop :=
  (∀ i, 1 ≤ i → i ≤ 6 → argByte args i = 0 ∨ argByte args i = 1) ∧ 1 ≤ argNat16 args 7 ∧ argNat16 args 7 ≤ 1024

theorem configureArgs_of_noClass (h : classOf (argByte args 0) = none) : configureArgs args = none := by
  simp [configureArgs, h]

/-- Another argument out of its range is BAD_ARGUMENT (R96). -/
theorem configureArgs_of_out (h : ¬ ConfigureInRange args) : configureArgs args = none := by
  unfold configureArgs
  dsimp only
  split
  · next draw topup revoke retire held window =>
    refine if_neg fun limit => h ⟨fun i least most => ?_, by simpa using limit⟩
    interval_cases i
    · exact yesNo_eq_some draw
    · exact yesNo_eq_some topup
    · exact yesNo_eq_some revoke
    · exact yesNo_eq_some retire
    · exact yesNo_eq_some held
    · exact yesNo_eq_some window
  · rfl

/-- Arguments in range are the class and its policy (R90, R96). -/
theorem configureArgs_of_in {k : ClassNo} (cls : classOf (argByte args 0) = some k) (h : ConfigureInRange args) :
    configureArgs args =
      some
        (k,
          { drawPermitted := argByte args 1 = 1, topupPermitted := argByte args 2 = 1
            revokePermitted := argByte args 3 = 1, retireWhenSpent := argByte args 4 = 1
            startHeld := argByte args 5 = 1, windowRequired := argByte args 6 = 1, maxUnits := argNat16 args 7 }) := by
  obtain ⟨bits, least, most⟩ := h
  have yes (i : Nat) (hi : 1 ≤ i) (hi' : i ≤ 6) : yesNo (argByte args i) = some (decide (argByte args i = 1)) :=
    yesNo_of_bit (bits i hi hi')
  simp [configureArgs, cls, yes, least, most]

end Arguments

/-! ### Dispatch -/

section Dispatch

variable {s : State} {cmd : Command} {k : ClassNo} {p : Policy}

/-- Arguments out of range end the CONFIGURE CLASS; a class byte above 15 is not reported (R96). -/
theorem State.runConfigureClass_of_badArgument (bad : configureArgs cmd.args = none) :
    State.runConfigureClass s cmd =
      State.post s cmd
        (plainResult .badArgument
          (.configure (if (argByte cmd.args 0).toNat < 16 then some (argByte cmd.args 0) else none) none)) := by
  simp [State.runConfigureClass, bad]

variable (given : configureArgs cmd.args = some (k, p))
include given

/-- A class that is SET or FAULTED is not configured again (R96). -/
theorem State.runConfigureClass_of_configured (configured : s.policies[k] ≠ .unconfigured) :
    State.runConfigureClass s cmd =
      State.post s cmd
        (plainResult .alreadySet (.configure (some (argByte cmd.args 0)) (some s.policies[k]))) := by
  simp only [State.runConfigureClass, given]
  split
  · next unconfigured => exact absurd unconfigured configured
  · next set => rw [set]
  · next faulted => rw [faulted]

/-- An UNCONFIGURED class has the strike of its region claimed (R97). -/
theorem State.runConfigureClass_of_unconfigured (unconfigured : s.policies[k] = .unconfigured) :
    State.runConfigureClass s cmd =
      State.claimStep s cmd (.configureStrike k p) (.strike 1 (.field (32 * k.val) (policyBytes k p))) := by
  simp [-Fin.getElem_fin, State.runConfigureClass, given, unconfigured, policyStrike]

end Dispatch

/-- Settles O22: each case is the first step of the dispatch that is due. -/
theorem configureClassDispatch : Obligations.ConfigureClassDispatch := by
  refine ⟨fun args => ?_, fun s cmd rest due => ?_⟩
  · intro maxUnits inRange
    exact ⟨fun above => configureArgs_of_noClass (classOf_eq_none above), configureArgs_of_out,
      fun k cls h => configureArgs_of_in (classOf_eq_some cls) h⟩
  · intro ends
    have run : exec .configureClass s = .next (State.runConfigureClass (State.headLeft s rest) cmd) :=
      congrArg _ (State.dispatch_of_due due State.runConfigureClass)
    refine ⟨fun bad => ?_, fun k p given => ?_⟩
    · have ended := exec_endsAtDispatch due run (State.runConfigureClass_of_badArgument bad)
      exact ⟨fun below => by rwa [if_pos below] at ended, fun above => by rwa [if_neg (Nat.not_lt.mpr above)] at ended⟩
    · have ended {status : ClassStatus} (is : s.policies[k] = status) (configured : status ≠ .unconfigured) :
          ends .alreadySet (.configure (some (argByte cmd.args 0)) (some status)) := by
        subst is
        exact exec_endsAtDispatch due run (State.runConfigureClass_of_configured given configured)
      refine ⟨fun q set => ended set nofun, fun faulted => ended faulted nofun, fun unconfigured => ?_⟩
      refine State.dispatchClaims_of_claimStep rfl rfl (run.trans (congrArg _ ?_))
      exact State.runConfigureClass_of_unconfigured (s := State.headLeft s rest) given unconfigured

/-! ### Completions -/

section Completions

variable {s : State} (going : s.intake.restartPending = false) (cmd : Command) (k : ClassNo)
include going

/-- The verified strike makes the class SET with its record (R97). -/
theorem State.configureStruck_of_verified (p : Policy) :
    State.configureStruck s cmd k p true =
      State.posted (State.setStatus s k (.set p)) cmd
        (plainResult .done (.configure (some (BitVec.ofNat 8 k.val)) (some (.set p)))) :=
  State.post_of_not_pending (s := State.setStatus s k (.set p)) going cmd _

/-- The READ after a failed strike gives the class the status and record of the image (R98). -/
theorem State.configureRead_of_going (img : Image) :
    State.configureRead s cmd k img =
      State.posted (State.setStatus s k (Image.classStatus img k)) cmd
        (plainResult .arrayFault
          (.configure (some (BitVec.ofNat 8 k.val)) (some (Image.classStatus img k)))) :=
  State.post_of_not_pending (s := State.setStatus s k (Image.classStatus img k)) going cmd _

end Completions

/-- A verified completion sets no FAULT_EVENT (R136). -/
theorem State.systemFailure_of_verified (s : State) (f : Frame) : State.systemFailure s f true = s := by
  simp [State.systemFailure]

/-- A failure on frame 1 sets FAULT_EVENT (R136). -/
theorem State.systemFailure_of_failedPolicy (s : State) : State.systemFailure s 1 false = State.setFaultEvent s := rfl

/-- Settles O36: what the strike and the READ of frame 1 report goes to the CONFIGURE CLASS in progress. -/
theorem configureStrikeCompletes : Obligations.ConfigureStrikeCompletes := by
  refine ⟨fun s cmd k p what stuck op work going job => ?_, fun s cmd k op work going job => ?_⟩
  · intro m
    refine ⟨fun verified => ?_, fun failed => ?_⟩
    · rw [exec_strikeComplete_of_job work job op stuck rfl verified, State.systemFailure_of_verified]
      exact congrArg _ (State.configureStruck_of_verified (s := State.setArray (State.clearOp s) m) going cmd k p)
    · rw [exec_strikeComplete_of_job work job op stuck rfl failed, State.systemFailure_of_failedPolicy]
      exact congrArg _ (State.claimStep_of_idle (s := State.setFaultEvent (State.setArray (State.clearOp s) m))
        (k := .read 1) rfl rfl cmd (.configureRead k))
  · intro status
    rw [exec_readComplete_of_job work job op]
    exact congrArg _ (State.configureRead_of_going (s := State.clearOp s) going cmd k _)

end Sys2Proof.Machine
end

section
/-! The system records (R90, R91, R92, R145): the status a policy region gives, the validity of frame 0, and both records read
back as written. -/

namespace Sys2Proof.Machine

-- As in the laws: proofs elaborated one after another keep the compile within its memory limit.
set_option Elab.async false

/-! ### Numbers as bytes -/

theorem be16_toNat_pair (a b : Byte) : be16 (a.toNat * 256 + b.toNat) = [a, b] := by
  have high : BitVec.ofNat 8 ((a.toNat * 256 + b.toNat) / 256) = a := by
    apply BitVec.eq_of_toNat_eq
    rw [BitVec.toNat_ofNat]
    omega
  have low : BitVec.ofNat 8 (a.toNat * 256 + b.toNat) = b := by
    apply BitVec.eq_of_toNat_eq
    rw [BitVec.toNat_ofNat]
    omega
  rw [be16, high, low]

theorem be32_append (a b c d : Byte) : be32 (a ++ b ++ c ++ d) = [a, b, c, d] := by
  have high : (a ++ b ++ c ++ d).toNat / 65536 = a.toNat * 256 + b.toNat := by
    simp only [toNat_append_byte]
    omega
  have low : (a ++ b ++ c ++ d).toNat % 65536 = c.toNat * 256 + d.toNat := by
    simp only [toNat_append_byte]
    omega
  rw [be32, high, low, be16_toNat_pair, be16_toNat_pair]
  rfl

/-- A word stands in the image where its four bytes spell it. -/
theorem Image.holds_word_iff {img : Image} {o : Nat} {w : Word} :
    Image.Holds img o (be32 w) ↔ img o ++ img (o + 1) ++ img (o + 2) ++ img (o + 3) = w := by
  constructor
  · intro h
    rw [← Image.ofNat_nat_quad, h.word]
  · rintro rfl
    rw [be32_append]
    rfl

theorem boolByte_of_bit {b : Byte} (h : b = 0 ∨ b = 1) : boolByte (decide (b = 1)) = b := by
  rcases h with rfl | rfl <;> rfl

theorem boolByte_bit (yes : Bool) : boolByte yes = 0 ∨ boolByte yes = 1 := by cases yes <;> simp [boolByte]

theorem decide_boolByte (yes : Bool) : decide (boolByte yes = 1) = yes := by cases yes <;> rfl

/-! ### Blank bytes -/

theorem Image.blankRange_iff (img : Image) (o n : Nat) :
    Image.blankRange img o n = true ↔ ∀ i < n, img (o + i) = 0xFF := by
  simp [Image.blankRange]

theorem Image.blank_iff (img : Image) : Image.blank img = true ↔ ∀ o < 512, img o = 0xFF := by
  simp [Image.blank, Image.blankRange_iff]

/-! ### The format record -/

theorem length_formatFields (label : Word) : (formatFields label).length = 14 := rfl

theorem Image.storeLabel_eq (img : Image) : Image.storeLabel img = img 10 ++ img 11 ++ img 12 ++ img 13 :=
  Image.ofNat_nat_quad img 10

/-- Frame 0 is valid when it holds a format record with the label it reads (R145). -/
theorem Image.formatValid_iff_holds (img : Image) :
    Image.formatValid img = true ↔
      Image.Holds img 0
        (formatFields (Image.storeLabel img) ++ be32 (checkCode (formatFields (Image.storeLabel img)))) :=
  decide_eq_true_iff

/-- The first 14 bytes are the fields of a format record when the first 10 hold the fixed ones (R145). -/
theorem Image.holds_formatFields_iff (img : Image) :
    Image.Holds img 0 (formatFields (Image.storeLabel img)) ↔
      (List.range 10).map img = be32 0x5AC317E8 ++ be16 2048 ++ be16 512 ++ be16 3 := by
  have label : Image.Holds img 10 (be32 (Image.storeLabel img)) := Image.holds_word_iff.mpr (Image.storeLabel_eq img).symm
  rw [formatFields, Image.holds_append]
  refine (and_iff_left label).trans ?_
  simp [Image.Holds, Image.bytes]

theorem Image.formatValid_iff (img : Image) :
    Image.formatValid img = true ↔
      (List.range 10).map img = be32 0x5AC317E8 ++ be16 2048 ++ be16 512 ++ be16 3 ∧
        img 14 ++ img 15 ++ img 16 ++ img 17 = checkCode ((List.range 14).map img) := by
  rw [Image.formatValid_iff_holds, Image.holds_append, ← Image.holds_formatFields_iff]
  refine and_congr_right fun fields => ?_
  have covered : (List.range 14).map img = formatFields (Image.storeLabel img) := by
    simpa only [Image.Holds, Image.bytes, length_formatFields, Nat.zero_add] using fields
  rw [covered]
  exact Image.holds_word_iff

theorem length_formatBytes (label : Word) : (formatBytes label).length = 512 := by
  simp only [formatBytes, List.length_append, length_formatFields, length_be32, List.length_replicate]

/-- A format record written whole reads back with its label (R145, R160). -/
theorem Image.formatValid_of_holds {img : Image} {label : Word} (h : Image.Holds img 0 (formatBytes label)) :
    Image.formatValid img = true ∧ Image.blank img = false ∧ Image.storeLabel img = label := by
  rw [formatBytes, Image.holds_append] at h
  obtain ⟨record, -⟩ := h
  have fields : Image.Holds img 0 (formatFields label) := ((Image.holds_append ..).mp record).1
  have label_eq : Image.storeLabel img = label := ((Image.holds_append ..).mp fields).2.word
  have identifier : img 0 = 0x5A := ((Image.holds_cons ..).mp fields).1
  refine ⟨(Image.formatValid_iff_holds img).mpr (by rwa [label_eq]), ?_, label_eq⟩
  rw [Bool.eq_false_iff, ne_eq, Image.blank_iff]
  intro blank
  rw [blank 0 (by omega)] at identifier
  exact absurd identifier (by decide)

/-! ### The policy region of a class -/

section Policy

variable (img : Image) (k : ClassNo)

/-- The policy that the fields of a region spell, whatever its yes/no bytes are. -/
def Image.policyAsRead : Policy :=
  let field (i : Nat) : Byte := img (32 * k.val + i)
  { drawPermitted := field 0 = 1, topupPermitted := field 1 = 1, revokePermitted := field 2 = 1
    retireWhenSpent := field 3 = 1, startHeld := field 4 = 1, windowRequired := field 5 = 1
    maxUnits := (field 6).toNat * 256 + (field 7).toNat }

/-- The six yes/no fields of a region read H'00 or H'01 (R92). -/
def Image.policyBits : Prop := ∀ i < 6, img (32 * k.val + i) = 0 ∨ img (32 * k.val + i) = 1

/-- The fields of a region are in range and its check code passes (R91, R92). -/
def Image.policyPasses : Prop :=
  let field (i : Nat) : Byte := img (32 * k.val + i)
  let maxUnits := (field 6).toNat * 256 + (field 7).toNat
  Image.policyBits img k ∧ 1 ≤ maxUnits ∧ maxUnits ≤ 1024 ∧
    field 8 ++ field 9 ++ field 10 ++ field 11 = checkCode (BitVec.ofNat 8 k.val :: (List.range 8).map field)

/-- The 32 bytes of a region are blank (R92). -/
def Image.policyBlank : Prop := ∀ i < 32, img (32 * k.val + i) = 0xFF

variable {img k}

theorem Image.policyFields_of_bits (bits : Image.policyBits img k) :
    Image.policyFields img k = some (Image.policyAsRead img k) := by
  have yes (i : Nat) (hi : i < 6) : yesNo (img (32 * k.val + i)) = some (decide (img (32 * k.val + i) = 1)) :=
    yesNo_of_bit (bits i hi)
  have first : yesNo (img (32 * k.val)) = some (decide (img (32 * k.val) = 1)) := yes 0 (by omega)
  simp only [Image.policyFields, first, yes 1 (by omega), yes 2 (by omega), yes 3 (by omega), yes 4 (by omega),
    yes 5 (by omega), Image.nat_pair]
  rfl

theorem Image.policyBits_of_fields {p : Policy} (fields : Image.policyFields img k = some p) :
    Image.policyBits img k := by
  unfold Image.policyFields at fields
  dsimp only at fields
  split at fields
  · next draw topup revoke retire held window =>
    intro i hi
    interval_cases i
    · exact yesNo_eq_some draw
    · exact yesNo_eq_some topup
    · exact yesNo_eq_some revoke
    · exact yesNo_eq_some retire
    · exact yesNo_eq_some held
    · exact yesNo_eq_some window
  · cases fields

/-- The check code covers the class number and the eight bytes of the fields (R91). -/
theorem policyCovered_policyAsRead (bits : Image.policyBits img k) :
    policyCovered k (Image.policyAsRead img k) =
      BitVec.ofNat 8 k.val :: (List.range 8).map fun i => img (32 * k.val + i) := by
  have yes (i : Nat) (hi : i < 6) := boolByte_of_bit (bits i hi)
  simp only [policyCovered, Image.policyAsRead, be16_toNat_pair, yes 0 (by omega), yes 1 (by omega), yes 2 (by omega),
    yes 3 (by omega), yes 4 (by omega), yes 5 (by omega)]
  rfl

/-- The limit and the check code decide the status of a region whose yes/no fields are in range (R92). -/
theorem Image.classStatus_of_passes (struck : ¬ Image.policyBlank img k)
    (passes : Image.policyPasses img k) : Image.classStatus img k = .set (Image.policyAsRead img k) := by
  obtain ⟨bits, least, most, code⟩ := passes
  rw [Image.classStatus, if_neg (mt (Image.blankRange_iff img _ _).mp struck)]
  simp only [Image.policyFields_of_bits bits, Image.ofNat_nat_quad, policyCovered_policyAsRead bits]
  exact if_pos (by simp [Image.policyAsRead, least, most, ← code])

theorem Image.classStatus_of_fails (struck : ¬ Image.policyBlank img k)
    (fails : ¬ Image.policyPasses img k) : Image.classStatus img k = .faulted := by
  rw [Image.classStatus, if_neg (mt (Image.blankRange_iff img _ _).mp struck)]
  split
  · rfl
  · next p fields =>
    have bits := Image.policyBits_of_fields fields
    obtain rfl : Image.policyAsRead img k = p := Option.some.inj ((Image.policyFields_of_bits bits).symm.trans fields)
    refine if_neg fun passes => fails ?_
    rw [Image.ofNat_nat_quad, policyCovered_policyAsRead bits] at passes
    simpa [Image.policyPasses, Image.policyAsRead, bits, and_assoc] using passes

theorem Image.classStatus_of_blank (blank : Image.policyBlank img k) :
    Image.classStatus img k = .unconfigured := if_pos ((Image.blankRange_iff img _ _).mpr blank)

/-- Each row of R92: a region is blank, or passes, or neither. -/
theorem Image.classStatus_iff :
    (Image.classStatus img k = .unconfigured ↔ Image.policyBlank img k) ∧
      (Image.classStatus img k = .faulted ↔
        ¬ Image.policyBlank img k ∧ ¬ Image.policyPasses img k) := by
  by_cases blank : Image.policyBlank img k
  · simp [Image.classStatus_of_blank blank, blank]
  · by_cases passes : Image.policyPasses img k
    · simp [Image.classStatus_of_passes blank passes, blank, passes]
    · simp [Image.classStatus_of_fails blank passes, blank, passes]

/-- A policy record written whole reads back SET with its fields (R90, R91, R97). -/
theorem Image.classStatus_of_holds {p : Policy} (h : Image.Holds img (32 * k.val) (policyBytes k p))
    (least : 1 ≤ p.maxUnits) (most : p.maxUnits ≤ 1024) : Image.classStatus img k = .set p := by
  rw [policyBytes, Image.holds_append, Image.holds_append] at h
  obtain ⟨⟨fields, code⟩, -⟩ := h
  simp only [policyCovered, List.tail_cons, List.cons_append, List.nil_append, Image.holds_cons, Nat.add_assoc,
    Nat.reduceAdd] at fields
  obtain ⟨draw, topup, revoke, retire, held, window, limit⟩ := fields
  have limit : (img (32 * k.val + 6)).toNat * 256 + (img (32 * k.val + 7)).toNat = p.maxUnits := by
    rw [← limit.nat16 (by omega)]
    exact (Image.nat_pair img _).symm
  have reads : Image.policyAsRead img k = p := by
    simp only [Image.policyAsRead, Nat.add_zero, draw, topup, revoke, retire, held, window, limit, decide_boolByte]
  have bits : Image.policyBits img k := by
    intro i hi
    interval_cases i
    · exact draw ▸ boolByte_bit _
    · exact topup ▸ boolByte_bit _
    · exact revoke ▸ boolByte_bit _
    · exact retire ▸ boolByte_bit _
    · exact held ▸ boolByte_bit _
    · exact window ▸ boolByte_bit _
  have struck : ¬ Image.policyBlank img k := fun blank => by
    have first := bits 0 (by omega)
    rw [blank 0 (by omega)] at first
    exact absurd first (by decide)
  have passes : Image.policyPasses img k := by
    refine ⟨bits, limit ▸ least, limit ▸ most, ?_⟩
    rw [← policyCovered_policyAsRead bits, reads]
    exact Image.holds_word_iff.mp code
  rw [Image.classStatus_of_passes struck passes, reads]

end Policy

theorem length_policyBytes (k : ClassNo) (p : Policy) : (policyBytes k p).length = 32 := rfl

/-- Settles O48: the rows of R92, the validity of frame 0 (R145), and both records read back as written. -/
theorem systemRecordsReadBackAsWritten : Obligations.SystemRecordsReadBackAsWritten := by
  refine ⟨fun k img => ?_, Image.formatValid_iff, fun img => ⟨Image.blank_iff img, Image.storeLabel_eq img⟩, fun k p label => ?_,
    fun k p img least most bytes => ?_, fun label img bytes => ?_⟩
  · intro field blank maxUnits passes
    obtain ⟨unconfigured, faulted⟩ := Image.classStatus_iff (img := img) (k := k)
    exact ⟨unconfigured, faulted, Image.classStatus_of_passes⟩
  · exact ⟨length_policyBytes k p, rfl, length_formatBytes label, List.drop_left' rfl⟩
  · exact Image.classStatus_of_holds (Image.holds_of_getD fun i hi => bytes i (length_policyBytes k p ▸ hi)) least most
  · refine Image.formatValid_of_holds (Image.holds_of_getD fun i hi => ?_)
    rw [Nat.zero_add]
    exact bytes i (length_formatBytes label ▸ hi)

end Sys2Proof.Machine
end

section
/-! The canonical form and the frame of the array (R106): array work keeps the form, and nothing else writes the array. -/

namespace Sys2Proof.Machine

/-! ### The canonical form -/

/-- What array work leaves of a canonical array is canonical. -/
theorem State.WorkLeaves.wf {s : State} {m : Memory} (h : State.WorkLeaves s m) (wf : State.arrayOk s) :
    Memory.wf m = true := by
  obtain rfl | ⟨undone, rfl⟩ := h
  · exact wf
  · cases ho : s.ctrl.op with
    | none => rwa [State.cutArray, ho]
    | some op =>
      rw [State.cutArray_of_op ho]
      exact Op.wf_cut undone op wf

/-- Settles O51: a step leaves the array alone, or as a cut of the operation in progress would leave it. -/
theorem canonicalArrayKept : Obligations.CanonicalArrayKept := fun _ _ wf h => (step_workLeaves h).wf wf

/-! ### What writes the array -/

/-- The commands and events that may write the array: the completion of a STRIKE, the stages and the suspension of an ERASE, and
what cuts or abandons array work (R110, R112, R116, R120, R121). -/
def arrayWork : Instr → Bool
  | .strikeComplete _ => true
  | .markerRetirement _ _ => true
  | .bodyErase _ _ => true
  | .markerErase _ _ => true
  | .systemFrameErase _ _ => true
  | .suspension _ _ => true
  | .powerOn _ => true
  | .powerLoss _ => true
  | .resetnAssertion _ => true
  | .restart _ => true
  | .format _ => true
  | _ => false

/-- Whatever other command or event is taken, the array stands. -/
theorem exec_array {c : Instr} (hc : arrayWork c = false) {s t : State} (h : exec c s = .next t) :
    t.array = s.array := by
  cases c with
  | resetnRelease => cases h; exact State.resetnRelease_array s
  | issue => cases h; exact State.dispatch_array_of_run State.runIssue_array
  | lookup => cases h; exact State.dispatch_array_of_run State.runLookup_array
  | draw => cases h; exact State.dispatch_array_of_run State.runDraw_array
  | topup => cases h; exact State.dispatch_array_of_run State.runTopup_array
  | move => cases h; exact State.dispatch_array_of_run State.runMove_array
  | revoke => cases h; exact State.dispatch_array_of_run State.runRevoke_array
  | list => cases h; exact State.dispatch_array_of_run State.runList_array
  | configureClass => cases h; exact State.dispatch_array_of_run State.runConfigureClass_array
  | purgeOrphans => cases h; exact State.dispatch_array_of_run State.runPurgeOrphans_array
  | readComplete => cases h; exact State.readComplete_array s
  | blankVerify => cases h; exact State.blankVerify_array s
  | quantum => cases h; exact State.quantum_array s
  | backgroundStart => cases h; exact State.backgroundStart_array s
  | backgroundResume => cases h; exact State.backgroundResume_array s
  | strikeComplete | markerRetirement | bodyErase | markerErase | systemFrameErase | suspension | powerOn | powerLoss
  | resetnAssertion | restart | format => exact absurd hc nofun
  | _ => exact (exec_linkPortOnly rfl h).array

/-- With no operation in progress there is nothing to cut, and no step changes the array. -/
theorem State.WorkLeaves.eq_of_idle {s : State} {m : Memory} (h : State.WorkLeaves s m) (idle : s.ctrl.op = none) :
    m = s.array := by
  obtain same | ⟨undone, rfl⟩ := h
  · exact same
  · rw [State.cutArray, idle]

/-- Settles O25: a step with nothing in progress has nothing to write, and a command or event that is no array work writes
nothing. -/
theorem arrayChangesOnlyByArrayWork : Obligations.ArrayChangesOnlyByArrayWork := by
  intro s t h changed
  refine ⟨fun idle => changed ((step_workLeaves h).eq_of_idle idle), ?_⟩
  unfold step at h
  split at h
  · cases h
    exact absurd (State.tick_array s) changed
  · next c rest queue =>
    have work : arrayWork c = true := by
      by_contra none
      exact changed (exec_array (s := { s with pending := rest }) (by simpa using none) h)
    refine ⟨c, by rw [queue]; rfl, ?_⟩
    cases c with
    | strikeComplete bits | powerOn bits | powerLoss bits | resetnAssertion bits | restart bits | format bits =>
      exact .inl ⟨bits, by simp⟩
    | markerRetirement elapsed bits | bodyErase elapsed bits | markerErase elapsed bits | systemFrameErase elapsed bits
    | suspension elapsed bits => exact .inr ⟨elapsed, bits, by simp⟩
    | _ => exact absurd work nofun

end Sys2Proof.Machine
end

section
/-! STRIKE and ERASE bit by bit (R2, R110, R112, R120): which bits a strike intends, when it verifies, and what a read gives
after a strike or an erase. -/

namespace Sys2Proof.Machine

/-! ### What a STRIKE intends and when it verifies -/

/-- Masked bits all read 0 exactly when each bit of the mask does. -/
theorem and_eq_zero_iff (b mask : Byte) :
    b &&& mask = 0 ↔ ∀ i < 8, mask.getLsbD i = true → b.getLsbD i = false := by
  constructor
  · intro h i _ hmask
    have bit := congrArg (·.getLsbD i) h
    simpa [hmask] using bit
  · intro h
    refine BitVec.eq_of_getLsbD_eq fun i hi => ?_
    cases hmask : mask.getLsbD i with
    | true => simp [hmask, h i hi hmask]
    | false => simp [hmask]

theorem verifies_bits_iff (bits : FrameBits) (img : Image) :
    Strike.verifies (.bits bits) img = true ↔
      ∀ p ∈ bits, ∀ i < 8, p.2.getLsbD i = true → (img p.1).getLsbD i = false := by
  simp only [Strike.verifies, List.all_eq_true, decide_eq_true_eq, and_eq_zero_iff]

theorem mem_intended_field_iff (start : Nat) (value : List Byte) (p : Nat × Byte) :
    p ∈ Strike.intended (.field start value) ↔
      ∃ (n : Nat) (h : n < value.length), p = (start + n, ~~~ value[n]) := by
  simp only [Strike.intended, List.mem_map, Prod.exists, List.mk_mem_zipIdx_iff_getElem?, List.getElem?_eq_some_iff]
  constructor
  · rintro ⟨b, n, ⟨h, rfl⟩, rfl⟩
    exact ⟨n, h, rfl⟩
  · rintro ⟨n, h, rfl⟩
    exact ⟨_, n, ⟨h, rfl⟩, rfl⟩

/-- A field strike intends the bits that are 0 in its value (R2, R110). -/
theorem intends_field_iff (start : Nat) (value : List Byte) (o : Nat) {i : Nat} (hi : i < 8) :
    (∃ p ∈ Strike.intended (.field start value), p.1 = o ∧ p.2.getLsbD i = true) ↔
      ∃ (n : Nat) (h : n < value.length), o = start + n ∧ value[n].getLsbD i = false := by
  constructor
  · rintro ⟨p, hp, rfl, hbit⟩
    obtain ⟨n, h, rfl⟩ := (mem_intended_field_iff start value p).mp hp
    exact ⟨n, h, rfl, by simpa [hi] using hbit⟩
  · rintro ⟨n, h, rfl, hbit⟩
    exact ⟨_, (mem_intended_field_iff start value _).mpr ⟨n, h, rfl⟩, rfl, by rw [BitVec.getLsbD_not, hbit]; simp [hi]⟩

theorem verifies_field_iff (start : Nat) (value : List Byte) (img : Image) :
    Strike.verifies (.field start value) img = true ↔ ∀ (n : Nat) (h : n < value.length), img (start + n) = value[n] := by
  simp only [Strike.verifies, List.all_eq_true, decide_eq_true_eq, Prod.forall, List.mk_mem_zipIdx_iff_getElem?,
    List.getElem?_eq_some_iff]
  constructor
  · exact fun h n hn => h _ n ⟨hn, rfl⟩
  · rintro h b n ⟨hn, rfl⟩
    exact h n hn

/-! ### A read after a STRIKE -/

/-- A STRIKE on a frame leaves every byte outside it as it was. -/
theorem Memory.read_strike_outside (m : Memory) {f : Frame} {a : Nat} (outside : ∀ o < 512, a ≠ byteAddress f o)
    (intended stuck : FrameBits) : Memory.read (Memory.strike m f intended stuck) a = Memory.read m a := by
  unfold Memory.strike
  induction intended generalizing m with
  | nil => rfl
  | cons p rest ih =>
    rw [List.foldl_cons, ih]
    by_cases ho : p.1 < 512
    · exact Memory.read_strikeByte_other m f p.1 _ (outside p.1 ho)
    · rw [Memory.strikeByte, if_neg ho]

theorem byteAddress_inj {f : Frame} {o p : Nat} : byteAddress f o = byteAddress f p ↔ o = p := by
  unfold byteAddress
  omega

/-- What the strike of the bits `b` of byte `p` of a frame, but for those that stay standing, makes of byte `o`. -/
theorem Memory.read_strikeByte {m : Memory} (wf : Memory.wf m = true) (f : Frame) {o : Nat} (ho : o < 512) (p : Nat)
    (b : Byte) :
    Memory.read (Memory.strikeByte m f p b) (byteAddress f o) =
      if p = o then Memory.read m (byteAddress f o) &&& ~~~ b else Memory.read m (byteAddress f o) := by
  split
  · next here =>
    subst here
    exact Memory.read_strikeByte_same wf f ho b
  · next elsewhere =>
    exact Memory.read_strikeByte_other m f p b fun h => elsewhere (byteAddress_inj.mp h).symm

/-- After a STRIKE a bit of its frame stands exactly when it stood and was not both intended and turned. -/
theorem Memory.getLsbD_read_strike {m : Memory} (wf : Memory.wf m = true) (f : Frame) (intended stuck : FrameBits) {o i : Nat}
    (ho : o < 512) (hi : i < 8) :
    (Memory.read (Memory.strike m f intended stuck) (byteAddress f o)).getLsbD i = true ↔
      (Memory.read m (byteAddress f o)).getLsbD i = true ∧
        ¬ ((∃ p ∈ intended, p.1 = o ∧ p.2.getLsbD i = true) ∧ (FrameBits.bitsAt stuck o).getLsbD i = false) := by
  unfold Memory.strike
  induction intended generalizing m with
  | nil => simp
  | cons p rest ih =>
    rw [List.foldl_cons, ih (Memory.wf_strikeByte f p.1 _ wf), Memory.read_strikeByte wf f ho]
    by_cases here : p.1 = o
    · subst here
      simp only [if_true, BitVec.getLsbD_and, BitVec.getLsbD_not, hi, List.mem_cons, exists_eq_or_imp]
      cases p.2.getLsbD i <;> cases (FrameBits.bitsAt stuck p.1).getLsbD i <;> simp
    · simp [here]

/-! ### A read after an ERASE's stage -/

/-- Marker retirement leaves every byte but the marker as it was. -/
theorem Memory.read_retireMarker_other (m : Memory) (f : Frame) (stuck : FrameBits) {a : Nat} (h : a ≠ byteAddress f 0) :
    Memory.read (Memory.retireMarker m f stuck) a = Memory.read m a :=
  Memory.read_strikeByte_other m f 0 _ h

/-- Marker retirement leaves standing only the standing bits of the marker that stay standing (R112). -/
theorem Memory.read_retireMarker_marker {m : Memory} (wf : Memory.wf m = true) (f : Frame) (stuck : FrameBits) :
    Memory.read (Memory.retireMarker m f stuck) (byteAddress f 0) =
      (Memory.read m (byteAddress f 0) &&& FrameBits.bitsAt stuck 0) := by
  have struck := Memory.read_strikeByte_same wf f (o := 0) (by decide) (0xFF &&& ~~~ FrameBits.bitsAt stuck 0)
  have mask : ~~~ (BitVec.allOnes 8 &&& ~~~ FrameBits.bitsAt stuck 0) = FrameBits.bitsAt stuck 0 := by
    rw [BitVec.allOnes_and, BitVec.not_not]
  rwa [show (0xFF : Byte) = BitVec.allOnes 8 from rfl, mask] at struck

/-- An erase returns to standing every bit of a byte in its range but the struck bits that stay struck (R106, R112). -/
theorem Memory.read_eraseRange_inside {m : Memory} (wf : Memory.wf m = true) {lo hi a : Nat} (stuck : Nat → Byte)
    (hlo : lo ≤ a) (hhi : a < hi) :
    Memory.read (Memory.eraseRange lo hi stuck m) a = (Memory.read m a ||| ~~~ (stuck a)) := by
  have blank (b : Byte) : 0xFF ||| b = 0xFF := BitVec.allOnes_or
  induction m with
  | nil => exact (blank _).symm
  | cons p m ih =>
    obtain ⟨k, c⟩ := p
    have later : ∀ q ∈ m, k < q.1 := (List.pairwise_cons.mp ((Memory.wf_iff _).mp wf).2).1
    have rest := ih (Memory.wf_tail wf)
    by_cases here : a = k
    · subst here
      rw [Memory.read_of_lt later, blank] at rest
      unfold Memory.eraseRange
      rw [if_pos (by simp [hlo, hhi])]
      split
      · next erased => simp [Memory.read, rest, erased]
      · simp [Memory.read]
    · unfold Memory.eraseRange
      repeat' split
      all_goals simp [Memory.read, here, rest]

theorem Memory.read_eraseBytes_inside {m : Memory} (wf : Memory.wf m = true) (f : Frame) {lo hi o : Nat} (stuck : FrameBits)
    (hlo : lo ≤ o) (hhi : o < hi) :
    Memory.read (Memory.eraseBytes m f lo hi stuck) (byteAddress f o) =
      (Memory.read m (byteAddress f o) ||| ~~~ (FrameBits.bitsAt stuck o)) := by
  have offset : byteAddress f o - byteAddress f 0 = o := by
    unfold byteAddress
    omega
  have within : byteAddress f lo ≤ byteAddress f o ∧ byteAddress f o < byteAddress f hi := by
    unfold byteAddress
    omega
  rw [Memory.eraseBytes, Memory.read_eraseRange_inside wf _ within.1 within.2, offset]

theorem Memory.read_eraseBytes_outside (m : Memory) (f : Frame) {lo hi a : Nat} (stuck : FrameBits)
    (outside : ∀ o, lo ≤ o → o < hi → a ≠ byteAddress f o) :
    Memory.read (Memory.eraseBytes m f lo hi stuck) a = Memory.read m a := by
  refine Memory.read_eraseRange_outside m _ fun ⟨hlo, hhi⟩ => ?_
  unfold byteAddress at *
  exact outside (a - 512 * f.val) (by omega) (by omega) (by omega)

/-! ### The completion or the cut of a STRIKE -/

/-- The completion of a STRIKE and its cut by power-on leave the same on the array, whatever follows them (R110, R120). -/
theorem exec_strike_array {s : State} {f : Frame} {claimant : Claimant} {what : Strike}
    (ho : s.ctrl.op = some (.strike f claimant what)) (left : FrameBits) {c : Instr}
    (hc : c = .strikeComplete left ∨ c = .powerOn left) :
    ∃ t, exec c s = .next t ∧ t.array = Memory.strike s.array f (Strike.intended what) left := by
  obtain rfl | rfl := hc
  · refine ⟨_, rfl, ?_⟩
    simp only [State.strikeComplete, ho]
    cases claimant <;> simp
  · refine ⟨_, rfl, ?_⟩
    exact State.cutArray_of_op ho left

/-- Settles O30: a completed and a cut STRIKE leave the same array, in which each byte of the frame is followed through the
strike of the intended bytes one after another. -/
theorem strikeTurnsOnlyIntendedBits : Obligations.StrikeTurnsOnlyIntendedBits := by
  refine ⟨fun bits start value img => ⟨rfl, verifies_bits_iff bits img, fun o i hi => intends_field_iff start value o hi,
    verifies_field_iff start value img⟩, fun _ _ _ => rfl, fun _ _ _ _ => ⟨rfl, rfl⟩, ?_⟩
  intro s f claimant what left c wf ho hc
  obtain ⟨t, run, struck⟩ := exec_strike_array ho left hc
  refine ⟨t, run, fun a outside => ?_, fun o i hbyte hi => ?_⟩
  · rw [struck]
    exact Memory.read_strike_outside _ outside _ _
  · rw [struck]
    exact Memory.getLsbD_read_strike wf f _ left hbyte hi

/-! ### The stages of an ERASE -/

/-- A failed first attempt of a foreground ERASE is followed by the retry at once (R113). -/
theorem State.attemptFailed_foreground_first (s : State) {e : Erase} (first : e.attempt = .first) :
    State.attemptFailed s .foreground e = State.setOp s (.erase .foreground (Erase.retry e) 0) := by
  simp [State.attemptFailed, first]

/-- The retry begins at the first stage of its frame, with no progress (R112, R113). -/
theorem Erase.retry_eq (e : Erase) :
    Erase.retry e =
      { frame := e.frame, attempt := .retry, progress := 0
        stage := if e.frame.val < 3 then .systemErase else .markerRetirement } := by
  simp [Erase.retry, firstStage, systemFrame]

/-- The stage that the ERASE in progress is in completes and leads on (R112). -/
theorem State.stageComplete_of_stage {s : State} {claimant : Claimant} {e : Erase} {since : Nat}
    (ho : s.ctrl.op = some (.erase claimant e since)) (next : Stage) (elapsed : Nat) (stuck : FrameBits) :
    State.stageComplete s e.stage next elapsed stuck =
      State.eraseGoesOn s (Memory.eraseStage s.array e.frame e.stage stuck) claimant e since next elapsed := by
  simp [State.stageComplete, ho]

/-- Settles O42: a stage writes what its part of `Memory.eraseStage` does, and a read tells its bytes from the others. -/
theorem eraseStagesRestoreCoveredBytes : Obligations.EraseStagesRestoreCoveredBytes := by
  refine ⟨fun _ _ _ => ⟨rfl, rfl, rfl, rfl, rfl⟩, fun _ _ _ _ _ _ _ => ⟨rfl, rfl, rfl⟩, ?_, ?_, ?_, ?_⟩
  · intro s claimant e since elapsed stuck ho goesOn
    refine ⟨fun stage verified => ?_, fun stage => ?_, fun stage => ?_, fun stage => ?_⟩
    · simp only [goesOn, exec, execMarkerRetirement, State.markerRetirement, ho, stage, verified, if_true]
      rfl
    · have done := State.stageComplete_of_stage ho .markerErase elapsed stuck
      rw [stage] at done
      exact congrArg _ done
    · have done := State.stageComplete_of_stage ho .blankVerify elapsed stuck
      rw [stage] at done
      exact congrArg _ done
    · have done := State.stageComplete_of_stage ho .blankVerify elapsed stuck
      rw [stage] at done
      exact congrArg _ done
  · intro s t e c fails first
    obtain ⟨run, same⟩ := State.exec_of_attemptFails fails
    rw [run, State.attemptFailed_foreground_first t first, Erase.retry_eq, same]
    rfl
  · intro m f lo hi a stuck wf _
    exact ⟨Memory.read_eraseBytes_outside m f stuck, fun o => Memory.read_eraseBytes_inside wf f stuck⟩
  · intro m f a stuck wf
    exact ⟨Memory.read_retireMarker_other m f stuck, Memory.read_retireMarker_marker wf f stuck⟩

end Sys2Proof.Machine
end

section
/-! The part without a supply (R120, R193): nothing is in progress and nothing opens, so only power-on changes it. -/

namespace Sys2Proof.Machine

/-- The supply is lost and with it the work in progress, the transaction and the waiting commands. -/
structure State.Stopped (s : State) : Prop where
  unpowered : s.pins.powered = false
  transaction : s.link.transaction = none
  waiting : s.intake.waiting = []
  op : s.ctrl.op = none
  suspended : s.ctrl.suspended = none
  reclaim : s.pools.reclaim = []

theorem State.powerLoss_of_powered {s : State} (powered : s.pins.powered = true) (undone : FrameBits) :
    State.powerLoss s undone = State.heldInReset s undone { powered := false, resetnLow := s.pins.resetnLow } := by
  simp [State.powerLoss, powered]

theorem State.heldInReset_stopped (s : State) (undone : FrameBits) (resetnLow : Bool) :
    State.Stopped (State.heldInReset s undone { powered := false, resetnLow := resetnLow }) := by
  constructor <;> rfl

namespace State.Stopped

variable {s : State} (h : State.Stopped s)
include h

theorem setTransaction : State.setTransaction s none = s := by
  rw [State.setTransaction, ← h.transaction]

theorem immediate (code : Byte) (act : Byte → State × List Byte) : State.immediate s code act = s := by
  simp [State.immediate, h.transaction]

theorem dispatch (code : Byte) (run : State → Command → State) : State.dispatch s code run = s := by
  refine State.dispatch_of_none (Option.eq_none_iff_forall_ne_some.mpr fun cmd head => ?_) run
  obtain ⟨-, -, -, -, rest, queue⟩ := State.dispatchHead_eq_some.mp head
  exact absurd (h.waiting.symm.trans queue) nofun

/-- A part with no supply takes no command but POWER_ON. -/
theorem exec {c : Instr} (other : ∀ cut, c ≠ .powerOn cut) : Machine.exec c s = .next s := by
  have closed : State.portOpen s = false := by simp [State.portOpen, h.unpowered]
  cases c with
  | powerOn cut => exact absurd rfl (other cut)
  | resetnAssertion cut => simp [Machine.exec, execResetnAssertion, State.resetnAssertion, closed]
  | resetnRelease => simp [Machine.exec, execResetnRelease, State.resetnRelease, h.unpowered]
  | powerLoss cut => simp [Machine.exec, execPowerLoss, State.powerLoss, h.unpowered]
  | chipSelectFall => simp [Machine.exec, execChipSelectFall, State.chipSelectFall, closed]
  | transactionEnd => exact congrArg _ h.setTransaction
  | submission code tag args crc => simp [Machine.exec, execSubmission, State.submission, h.transaction]
  | submissionTruncated bytes => simp [Machine.exec, execSubmissionTruncated, State.submissionTruncated, h.transaction]
  | collect => simp [Machine.exec, execCollect, State.collect, h.transaction]
  | recordShiftedOut => simp [Machine.exec, execRecordShiftedOut, State.recordShiftedOut, h.transaction]
  | unknownImmediateCommand code =>
    simp only [Machine.exec, execUnknownImmediateCommand, h.immediate, ite_self]
  | status | info | setEpoch | holdClass | releaseClass | cancel | restart => exact congrArg _ (h.immediate _ _)
  | issue | lookup | draw | topup | move | revoke | list | configureClass | purgeOrphans | format =>
    exact congrArg _ (h.dispatch _ _)
  | readComplete => simp [Machine.exec, execReadComplete, State.readComplete, h.op]
  | strikeComplete stuck => simp [Machine.exec, execStrikeComplete, State.strikeComplete, h.op]
  | markerRetirement elapsed stuck => simp [Machine.exec, execMarkerRetirement, State.markerRetirement, h.op]
  | bodyErase elapsed stuck => simp [Machine.exec, execBodyErase, State.stageComplete, h.op]
  | markerErase elapsed stuck => simp [Machine.exec, execMarkerErase, State.stageComplete, h.op]
  | systemFrameErase elapsed stuck => simp [Machine.exec, execSystemFrameErase, State.stageComplete, h.op]
  | blankVerify => simp [Machine.exec, execBlankVerify, State.blankVerify, h.op]
  | quantum => simp [Machine.exec, execQuantum, State.quantum, h.op]
  | suspension elapsed undone => simp [Machine.exec, execSuspension, State.suspension, h.op]
  | backgroundStart => simp [Machine.exec, execBackgroundStart, State.backgroundStart, h.op, h.suspended, h.reclaim]
  | backgroundResume => simp [Machine.exec, execBackgroundResume, State.backgroundResume, h.op, h.suspended]

end State.Stopped

/-- Settles O3: the loss of the supply leaves a stopped part, and a stopped part takes no other command. -/
theorem powerLossStopsPartUntilPowerOn : Obligations.PowerLossStopsPartUntilPowerOn := by
  have lost {s : State} (powered : s.pins.powered = true) (cut : FrameBits) :
      exec (.powerLoss cut) s =
        .next (State.heldInReset s cut { powered := false, resetnLow := s.pins.resetnLow }) :=
    congrArg _ (State.powerLoss_of_powered powered cut)
  refine ⟨fun cut s powered => ?_, fun cut s t c powered h other => ?_⟩
  · rw [lost powered]
    rfl
  · rw [lost powered] at h
    cases h
    exact (State.heldInReset_stopped s cut s.pins.resetnLow).exec other

end Sys2Proof.Machine
end

section
/-! A background ERASE comes to progress in no continuation of a command or a mount (R108, R117). The lemmas on the controller
after an update of the state hold by `rfl`; `-implicitDefEqProofs` has `simp` keep their proofs, with which it discharges the
hypothesis of the lemmas here on the updated state. -/

namespace Sys2Proof.Machine

/-- No background ERASE progresses. -/
def Controller.NoBackgroundErase (c : Controller) : Prop := ∀ e since, c.op ≠ some (.erase .background e since)

theorem State.not_backgroundErasing_iff (s : State) :
    ¬ State.backgroundErasing s ↔ Controller.NoBackgroundErase s.ctrl := by
  simp [State.backgroundErasing, Controller.NoBackgroundErase]

/-! ### Claims -/

@[simp] theorem Controller.noBackgroundErase_of_none (suspended : Option Erase) (waiting : Option Claim) :
    Controller.NoBackgroundErase { op := none, suspended := suspended, waiting := waiting } := nofun

@[simp] theorem Controller.noBackgroundErase_of_foreground (e : Erase) (since : Nat) (suspended : Option Erase)
    (waiting : Option Claim) :
    Controller.NoBackgroundErase { op := some (.erase .foreground e since), suspended := suspended, waiting := waiting } :=
  nofun

/-- A foreground claim begins no background ERASE (R114). -/
@[simp] theorem Controller.claim_noBackgroundErase {c : Controller} (h : Controller.NoBackgroundErase c) (k : Claim) :
    Controller.NoBackgroundErase (Controller.claim c k) := by
  unfold Controller.claim
  split
  · cases k <;> exact nofun
  · exact h

section Continuations

variable {s : State} (h : Controller.NoBackgroundErase s.ctrl)

/-! ### Posting and takes -/

@[simp] theorem State.clearForRestart_noBackgroundErase (s : State) :
    Controller.NoBackgroundErase (State.clearForRestart s).ctrl := nofun

include h

@[simp] theorem State.post_noBackgroundErase (cmd : Command) (r : Result) :
    Controller.NoBackgroundErase (State.post s cmd r).ctrl := by
  unfold State.post
  split
  · simp
  · exact h

@[simp] theorem State.demandNext_noBackgroundErase (cmd : Command) (w : Writing) :
    Controller.NoBackgroundErase (State.demandNext s cmd w).ctrl := by
  unfold State.demandNext
  split <;> simp -implicitDefEqProofs [h, State.takeFails]

@[simp] theorem State.take_noBackgroundErase (cmd : Command) (w : Writing) :
    Controller.NoBackgroundErase (State.take s cmd w).ctrl := by
  unfold State.take
  split
  · simp -implicitDefEqProofs [h, State.writeInto]
  · unfold State.demandReclaim
    split <;> simp -implicitDefEqProofs [h]

/-! ### The command in progress -/

@[simp] theorem State.newFrameReleased_noBackgroundErase (cmd : Command) (w : Writing) (f : Frame) (verified : Bool) :
    Controller.NoBackgroundErase (State.newFrameReleased s cmd w f verified).ctrl := by
  unfold State.newFrameReleased
  dsimp only
  split <;> simp -implicitDefEqProofs [h]

@[simp] theorem State.newFrameLive_noBackgroundErase (cmd : Command) (w : Writing) (f : Frame) :
    Controller.NoBackgroundErase (State.newFrameLive s cmd w f).ctrl := by
  unfold State.newFrameLive
  split <;> simp -implicitDefEqProofs [h]

@[simp] theorem State.movedDone_noBackgroundErase (cmd : Command) (w : Writing) (o : OldGrant) (new : Frame) (verified : Bool) :
    Controller.NoBackgroundErase (State.movedDone s cmd w o new verified).ctrl := by
  unfold State.movedDone
  split <;> simp -implicitDefEqProofs [h, State.fallback]

@[simp] theorem State.retiredDone_noBackgroundErase (cmd : Command) (e : Ending) (f : Frame) (verified : Bool) :
    Controller.NoBackgroundErase (State.retiredDone s cmd e f verified).ctrl := by
  unfold State.retiredDone
  split <;> simp -implicitDefEqProofs [h, State.fallback]

@[simp] theorem State.retire_noBackgroundErase (cmd : Command) (e : Ending) (f : Frame) (bits : Byte) :
    Controller.NoBackgroundErase (State.retire s cmd e f bits).ctrl := by
  unfold State.retire
  split <;> simp -implicitDefEqProofs [h]

@[simp] theorem State.formatSweep_noBackgroundErase (cmd : Command) (f : Formatting) (n : Nat) :
    Controller.NoBackgroundErase (State.formatSweep s cmd f n).ctrl := by
  unfold State.formatSweep
  split <;> simp -implicitDefEqProofs [h, State.formatRecordStrike]

@[simp] theorem State.formatErased_noBackgroundErase (cmd : Command) (f : Formatting) (g : Frame) (verified : Bool) :
    Controller.NoBackgroundErase (State.formatErased s cmd f g verified).ctrl := by
  unfold State.formatErased
  repeat' split
  all_goals simp -implicitDefEqProofs [h]

@[simp] theorem State.formatMarked_noBackgroundErase (cmd : Command) (f : Formatting) (g : Frame) (verified : Bool) :
    Controller.NoBackgroundErase (State.formatMarked s cmd f g verified).ctrl := by
  unfold State.formatMarked
  split <;> simp -implicitDefEqProofs [h]

@[simp] theorem State.formatWritten_noBackgroundErase (cmd : Command) (f : Formatting) (verified : Bool) :
    Controller.NoBackgroundErase (State.formatWritten s cmd f verified).ctrl := by
  unfold State.formatWritten
  split <;> simp -implicitDefEqProofs [h]

@[simp] theorem State.lookupRead_noBackgroundErase (cmd : Command) (snap : Snapshot) (e : Entry) (f : Frame) (img : Image) :
    Controller.NoBackgroundErase (State.lookupRead s cmd snap e f img).ctrl := by
  unfold State.lookupRead
  split <;> simp -implicitDefEqProofs [h, State.markCorrupt]

@[simp] theorem State.drawRead_noBackgroundErase (cmd : Command) (snap : Snapshot) (e : Entry) (f : Frame) (img : Image) :
    Controller.NoBackgroundErase (State.drawRead s cmd snap e f img).ctrl := by
  unfold State.drawRead
  dsimp only
  repeat' split
  all_goals simp -implicitDefEqProofs [h, State.markCorrupt]

@[simp] theorem State.drawStruckB_noBackgroundErase (cmd : Command) (d : Drawing) (e : Entry) (verifiedA : Bool) (f : Frame)
    (verifiedB : Bool) : Controller.NoBackgroundErase (State.drawStruckB s cmd d e verifiedA f verifiedB).ctrl := by
  unfold State.drawStruckB
  repeat' split
  all_goals simp -implicitDefEqProofs [h]

@[simp] theorem State.drawReadBack_noBackgroundErase (cmd : Command) (d : Drawing) (e : Entry) (img : Image) :
    Controller.NoBackgroundErase (State.drawReadBack s cmd d e img).ctrl := by
  unfold State.drawReadBack
  split <;> simp -implicitDefEqProofs [h, State.markCorrupt]

@[simp] theorem State.relocationCorrupt_noBackgroundErase (cmd : Command) (e : Entry) (img : Image) :
    Controller.NoBackgroundErase (State.relocationCorrupt s cmd e img).ctrl := by
  simp -implicitDefEqProofs [h, State.relocationCorrupt, State.markCorrupt]

@[simp] theorem State.topupRead_noBackgroundErase (cmd : Command) (snap : Snapshot) (e : Entry) (f : Frame) (img : Image) :
    Controller.NoBackgroundErase (State.topupRead s cmd snap e f img).ctrl := by
  unfold State.topupRead
  dsimp only
  repeat' split
  all_goals simp -implicitDefEqProofs [h]

@[simp] theorem State.moveRead_noBackgroundErase (cmd : Command) (e : Entry) (f : Frame) (img : Image) :
    Controller.NoBackgroundErase (State.moveRead s cmd e f img).ctrl := by
  unfold State.moveRead
  dsimp only
  repeat' split
  all_goals simp -implicitDefEqProofs [h]

@[simp] theorem State.revokeRead_noBackgroundErase (cmd : Command) (snap : Snapshot) (e : Entry) (f : Frame) (img : Image) :
    Controller.NoBackgroundErase (State.revokeRead s cmd snap e f img).ctrl := by
  unfold State.revokeRead
  dsimp only
  repeat' split
  all_goals simp -implicitDefEqProofs [h, State.markCorrupt]

@[simp] theorem State.configureStruck_noBackgroundErase (cmd : Command) (k : ClassNo) (p : Policy) (verified : Bool) :
    Controller.NoBackgroundErase (State.configureStruck s cmd k p verified).ctrl := by
  unfold State.configureStruck
  split <;> simp -implicitDefEqProofs [h]

@[simp] theorem State.purgeNext_noBackgroundErase (cmd : Command) (members : List Frame) (moved failed : Nat) :
    Controller.NoBackgroundErase (State.purgeNext s cmd members moved failed).ctrl := by
  unfold State.purgeNext
  split <;> simp -implicitDefEqProofs [h]

@[simp] theorem State.demandErased_noBackgroundErase (cmd : Command) (w : Writing) (f : Frame) (verified : Bool) :
    Controller.NoBackgroundErase (State.demandErased s cmd w f verified).ctrl := by
  unfold State.demandErased
  split <;> simp -implicitDefEqProofs [h, State.writeInto]

@[simp] theorem State.fallbackErased_noBackgroundErase (cmd : Command) (fallback lost : Result) (f : Frame) (verified : Bool) :
    Controller.NoBackgroundErase (State.fallbackErased s cmd fallback lost f verified).ctrl := by
  unfold State.fallbackErased
  split <;> simp -implicitDefEqProofs [h]

@[simp] theorem State.engineRead_noBackgroundErase (j : Job) (f : Frame) (img : Image) :
    Controller.NoBackgroundErase (State.engineRead s j f img).ctrl := by
  unfold State.engineRead
  split <;> simp -implicitDefEqProofs [h, State.configureRead]

@[simp] theorem State.engineStruck_noBackgroundErase (j : Job) (f : Frame) (verified : Bool) :
    Controller.NoBackgroundErase (State.engineStruck s j f verified).ctrl := by
  unfold State.engineStruck
  repeat' split
  all_goals
    simp -implicitDefEqProofs [h, State.drawStruckA, State.demandMarked, State.newFrameFailed, State.fallbackMarked,
      State.purgeStruck]

@[simp] theorem State.engineErased_noBackgroundErase (j : Job) (f : Frame) (verified : Bool) :
    Controller.NoBackgroundErase (State.engineErased s j f verified).ctrl := by
  unfold State.engineErased
  split <;> simp -implicitDefEqProofs [h]

/-- A waiting claim is served in the foreground (R114). -/
@[simp] theorem State.serveWaiting_noBackgroundErase : Controller.NoBackgroundErase (State.serveWaiting s).ctrl := by
  have served : Controller.NoBackgroundErase { s.ctrl with waiting := none } := h
  unfold State.serveWaiting
  dsimp only
  repeat' split
  all_goals simp -implicitDefEqProofs [h, served]

/-! ### A mount -/

@[simp] theorem State.mountEnds_noBackgroundErase (part : PartState) :
    Controller.NoBackgroundErase (State.mountEnds s part).ctrl := by
  unfold State.mountEnds
  dsimp only
  split <;> simp -implicitDefEqProofs [h]

@[simp] theorem State.placeFrame_noBackgroundErase (q : Frame × Placement) :
    Controller.NoBackgroundErase (State.placeFrame s q).ctrl := by
  unfold State.placeFrame
  repeat' split
  all_goals simp -implicitDefEqProofs [h]

@[simp] theorem State.tick_noBackgroundErase : Controller.NoBackgroundErase (State.tick s).ctrl := by
  unfold State.tick State.walkOn
  repeat' split
  all_goals simp -implicitDefEqProofs [h]

@[simp] theorem State.resolve_noBackgroundErase (w : MountWork) (todo winners : List Candidate) :
    Controller.NoBackgroundErase (State.resolve s w todo winners).ctrl := by
  induction todo generalizing winners with
  | nil => exact h
  | cons q todo ih =>
    unfold State.resolve
    split
    · exact ih _
    · simp -implicitDefEqProofs [h]

@[simp] theorem State.scanFrom_noBackgroundErase (w : MountWork) (n : Nat) :
    Controller.NoBackgroundErase (State.scanFrom s w n).ctrl := by
  unfold State.scanFrom
  split <;> simp -implicitDefEqProofs [h]

@[simp] theorem State.scanned_noBackgroundErase (w : MountWork) (f : Frame) (found : Scanned) :
    Controller.NoBackgroundErase (State.scanned s w f found).ctrl := by
  unfold State.scanned
  split <;> simp -implicitDefEqProofs [h]

@[simp] theorem State.scanRead_noBackgroundErase (w : MountWork) (f : Frame) (img : Image) :
    Controller.NoBackgroundErase (State.scanRead s w f img).ctrl := by
  unfold State.scanRead
  repeat' split
  all_goals simp -implicitDefEqProofs [h]

@[simp] theorem State.mountFormat_noBackgroundErase (w : MountWork) (img : Image) :
    Controller.NoBackgroundErase (State.mountFormat s w img).ctrl := by
  unfold State.mountFormat
  repeat' split
  all_goals simp -implicitDefEqProofs [h]

@[simp] theorem State.mountGoesOn_noBackgroundErase (w : MountWork) (f : Frame) (next : MountNext) :
    Controller.NoBackgroundErase (State.mountGoesOn s w f next).ctrl := by
  unfold State.mountGoesOn
  split <;> simp -implicitDefEqProofs [h]

@[simp] theorem State.mountRead_noBackgroundErase (w : MountWork) (f : Frame) (img : Image) :
    Controller.NoBackgroundErase (State.mountRead s w f img).ctrl := by
  unfold State.mountRead
  split <;> simp -implicitDefEqProofs [h, State.mountMap, State.mountPolicies]

@[simp] theorem State.mountStruck_noBackgroundErase (w : MountWork) (f : Frame) (verified : Bool) :
    Controller.NoBackgroundErase (State.mountStruck s w f verified).ctrl := by
  unfold State.mountStruck
  repeat' split
  all_goals simp -implicitDefEqProofs [h, State.mountFallback]

@[simp] theorem State.mountErased_noBackgroundErase (w : MountWork) (f : Frame) (verified : Bool) :
    Controller.NoBackgroundErase (State.mountErased s w f verified).ctrl := by
  unfold State.mountErased
  repeat' split
  all_goals simp -implicitDefEqProofs [h]

/-! ### Reports -/

@[simp] theorem State.reportRead_noBackgroundErase (f : Frame) (img : Image) :
    Controller.NoBackgroundErase (State.reportRead s f img).ctrl := by
  unfold State.reportRead
  split <;> simp -implicitDefEqProofs [h]

@[simp] theorem State.reportStrike_noBackgroundErase (f : Frame) (verified : Bool) :
    Controller.NoBackgroundErase (State.reportStrike s f verified).ctrl := by
  unfold State.reportStrike
  split <;> simp -implicitDefEqProofs [h]

@[simp] theorem State.reportErase_noBackgroundErase (f : Frame) (verified : Bool) :
    Controller.NoBackgroundErase (State.reportErase s f verified).ctrl := by
  unfold State.reportErase
  split <;> simp -implicitDefEqProofs [h]

@[simp] theorem State.systemFailure_noBackgroundErase (f : Frame) (verified : Bool) :
    Controller.NoBackgroundErase (State.systemFailure s f verified).ctrl := by
  unfold State.systemFailure
  split <;> simp -implicitDefEqProofs [h]

@[simp] theorem State.backgroundMarked_noBackgroundErase (verified : Bool) :
    Controller.NoBackgroundErase (State.backgroundMarked s verified).ctrl := by
  unfold State.backgroundMarked
  split <;> simp -implicitDefEqProofs [h]

end Continuations

end Sys2Proof.Machine
end

section
/-! A background ERASE comes to progress only at BACKGROUND_START and BACKGROUND_RESUME, with the foreground quiet (R117). -/

namespace Sys2Proof.Machine

section Events

variable {s : State} (h : Controller.NoBackgroundErase s.ctrl)

/-! ### The events of the array controller -/

/-- Nothing of the background's progresses once the operation has ended. -/
theorem State.clearOp_noBackgroundErase (s : State) : Controller.NoBackgroundErase (State.clearOp s).ctrl := nofun

/-- A foreground ERASE whose attempt failed is reported or retried in the foreground (R113). -/
theorem State.attemptFailed_noBackgroundErase (s : State) (e : Erase) :
    Controller.NoBackgroundErase (State.attemptFailed s .foreground e).ctrl := by
  unfold State.attemptFailed
  split
  · exact State.reportErase_noBackgroundErase
      (State.systemFailure_noBackgroundErase (State.clearOp_noBackgroundErase s) e.frame false) e.frame false
  · simp

include h

theorem State.readComplete_noBackgroundErase : Controller.NoBackgroundErase (State.readComplete s).ctrl := by
  unfold State.readComplete
  split
  · exact State.reportRead_noBackgroundErase (State.clearOp_noBackgroundErase s) _ _
  · exact h

theorem State.strikeComplete_noBackgroundErase (stuck : FrameBits) :
    Controller.NoBackgroundErase (State.strikeComplete s stuck).ctrl := by
  unfold State.strikeComplete
  dsimp only
  repeat' split
  all_goals simp -implicitDefEqProofs [h]

/-- The ERASE that progresses is not the background's. -/
theorem Controller.NoBackgroundErase.foreground {claimant : Claimant} {e : Erase} {since : Nat}
    (ho : s.ctrl.op = some (.erase claimant e since)) : claimant = .foreground := by
  cases claimant with
  | foreground => rfl
  | background => exact absurd ho (h e since)

theorem State.markerRetirement_noBackgroundErase (elapsed : Nat) (stuck : FrameBits) :
    Controller.NoBackgroundErase (State.markerRetirement s elapsed stuck).ctrl := by
  unfold State.markerRetirement
  split
  · next claimant e since ho =>
    obtain rfl := Controller.NoBackgroundErase.foreground h ho
    split
    · dsimp only
      split
      · exact nofun
      · exact State.attemptFailed_noBackgroundErase _ e
    · exact h
  · exact h

theorem State.stageComplete_noBackgroundErase (stage next : Stage) (elapsed : Nat) (stuck : FrameBits) :
    Controller.NoBackgroundErase (State.stageComplete s stage next elapsed stuck).ctrl := by
  unfold State.stageComplete
  split
  · next claimant e since ho =>
    obtain rfl := Controller.NoBackgroundErase.foreground h ho
    split
    · exact nofun
    · exact h
  · exact h

theorem State.blankVerify_noBackgroundErase : Controller.NoBackgroundErase (State.blankVerify s).ctrl := by
  unfold State.blankVerify
  split
  · next claimant e since ho =>
    obtain rfl := Controller.NoBackgroundErase.foreground h ho
    split
    · split
      · exact State.reportErase_noBackgroundErase (State.clearOp_noBackgroundErase s) e.frame true
      · exact State.attemptFailed_noBackgroundErase _ e
    · exact h
  · exact h

/-- The quantum is a background ERASE's alone (R115). -/
theorem State.quantum_noBackgroundErase : Controller.NoBackgroundErase (State.quantum s).ctrl := by
  unfold State.quantum
  split
  · next e since ho => exact absurd ho (h e since)
  · exact h

/-- Only a background ERASE is suspended (R116). -/
theorem State.suspension_noBackgroundErase (elapsed : Nat) (undone : FrameBits) :
    Controller.NoBackgroundErase (State.suspension s elapsed undone).ctrl := by
  unfold State.suspension
  split
  · next e since k ho hk => exact absurd ho (h e since)
  · exact h

/-! ### Dispatches -/

theorem State.dispatch_noBackgroundErase {run : State → Command → State}
    (runs : ∀ t cmd, Controller.NoBackgroundErase t.ctrl → Controller.NoBackgroundErase (run t cmd).ctrl) (code : Byte) :
    Controller.NoBackgroundErase (State.dispatch s code run).ctrl := by
  unfold State.dispatch
  split
  · exact h
  · exact runs _ _ h

variable (cmd : Command)

theorem State.runIssue_noBackgroundErase : Controller.NoBackgroundErase (State.runIssue s cmd).ctrl := by
  unfold State.runIssue
  dsimp only
  repeat' split
  all_goals simp [h]

theorem State.runLookup_noBackgroundErase : Controller.NoBackgroundErase (State.runLookup s cmd).ctrl := by
  unfold State.runLookup
  repeat' split
  all_goals simp [h, State.readEntry]

theorem State.runDraw_noBackgroundErase : Controller.NoBackgroundErase (State.runDraw s cmd).ctrl := by
  unfold State.runDraw
  repeat' split
  all_goals simp [h, State.readEntry]

theorem State.runTopup_noBackgroundErase : Controller.NoBackgroundErase (State.runTopup s cmd).ctrl := by
  unfold State.runTopup
  repeat' split
  all_goals simp [h, State.readEntry]

theorem State.runMove_noBackgroundErase : Controller.NoBackgroundErase (State.runMove s cmd).ctrl := by
  unfold State.runMove
  repeat' split
  all_goals simp [h, State.readEntry]

theorem State.runRevoke_noBackgroundErase : Controller.NoBackgroundErase (State.runRevoke s cmd).ctrl := by
  unfold State.runRevoke
  split <;> simp [h, State.readEntry]

theorem State.runConfigureClass_noBackgroundErase :
    Controller.NoBackgroundErase (State.runConfigureClass s cmd).ctrl := by
  unfold State.runConfigureClass
  dsimp only
  repeat' split
  all_goals simp [h]

theorem State.abandon_noBackgroundErase (undone : FrameBits) :
    Controller.NoBackgroundErase (State.abandon s undone).ctrl := by
  unfold State.abandon
  repeat' split
  · simp [*]
  · simp
  · exact h

theorem State.runFormat_noBackgroundErase (undone : FrameBits) :
    Controller.NoBackgroundErase (State.runFormat undone s cmd).ctrl := by
  have entered : Controller.NoBackgroundErase (State.enterFormatting s undone).ctrl := State.abandon_noBackgroundErase h undone
  unfold State.runFormat
  dsimp only
  split <;> simp [entered]

/-! ### Resets, RESTART and the link port -/

omit h in
theorem State.heldInReset_noBackgroundErase (s : State) (undone : FrameBits) (pins : Pins) :
    Controller.NoBackgroundErase (State.heldInReset s undone pins).ctrl := nofun

theorem State.restart_noBackgroundErase (undone : FrameBits) :
    Controller.NoBackgroundErase (State.restart s undone).1.ctrl := by
  unfold State.restart
  split
  · exact h
  · unfold State.takeRestart
    dsimp only
    split
    · exact State.clearForRestart_noBackgroundErase _
    · unfold State.serveIfFree
      have left := State.abandon_noBackgroundErase
        (s := { s with intake := { s.intake with waiting := [], restartPending := true } }) h undone
      split
      · exact State.serveWaiting_noBackgroundErase left
      · exact left

theorem State.immediate_noBackgroundErase (code : Byte) {act : Byte → State × List Byte}
    (acts : ∀ captured, Controller.NoBackgroundErase (act captured).1.ctrl) :
    Controller.NoBackgroundErase (State.immediate s code act).ctrl := by
  unfold State.immediate
  split
  · exact acts _
  · exact h

end Events

/-! ### Every step -/

/-- Whatever is taken but BACKGROUND_START and BACKGROUND_RESUME, no background ERASE comes to progress. -/
theorem exec_noBackgroundErase {c : Instr} (start : c ≠ .backgroundStart) (resume : c ≠ .backgroundResume) {s t : State}
    (h : Controller.NoBackgroundErase s.ctrl) (run : exec c s = .next t) : Controller.NoBackgroundErase t.ctrl := by
  cases c with
  | backgroundStart => exact absurd rfl start
  | backgroundResume => exact absurd rfl resume
  | powerOn cut => cases run; exact nofun
  | resetnAssertion cut =>
    cases run
    unfold State.resetnAssertion
    split
    · exact State.heldInReset_noBackgroundErase s cut _
    · exact h
  | powerLoss cut =>
    cases run
    unfold State.powerLoss
    split
    · exact State.heldInReset_noBackgroundErase s cut _
    · exact h
  | resetnRelease =>
    cases run
    unfold State.resetnRelease
    split <;> simp [h]
  | restart cut =>
    cases run
    exact State.immediate_noBackgroundErase h _ fun _ => State.restart_noBackgroundErase h cut
  | issue => cases run; exact State.dispatch_noBackgroundErase h (fun _ cmd h => State.runIssue_noBackgroundErase h cmd) _
  | lookup => cases run; exact State.dispatch_noBackgroundErase h (fun _ cmd h => State.runLookup_noBackgroundErase h cmd) _
  | draw => cases run; exact State.dispatch_noBackgroundErase h (fun _ cmd h => State.runDraw_noBackgroundErase h cmd) _
  | topup => cases run; exact State.dispatch_noBackgroundErase h (fun _ cmd h => State.runTopup_noBackgroundErase h cmd) _
  | move => cases run; exact State.dispatch_noBackgroundErase h (fun _ cmd h => State.runMove_noBackgroundErase h cmd) _
  | revoke => cases run; exact State.dispatch_noBackgroundErase h (fun _ cmd h => State.runRevoke_noBackgroundErase h cmd) _
  | list => cases run; exact State.dispatch_noBackgroundErase h (fun _ cmd h => State.post_noBackgroundErase h cmd _) _
  | configureClass =>
    cases run
    exact State.dispatch_noBackgroundErase h (fun _ cmd h => State.runConfigureClass_noBackgroundErase h cmd) _
  | purgeOrphans =>
    cases run
    exact State.dispatch_noBackgroundErase h (fun _ cmd h => State.purgeNext_noBackgroundErase h cmd _ 0 0) _
  | format cut =>
    cases run
    exact State.dispatch_noBackgroundErase h (fun _ cmd h => State.runFormat_noBackgroundErase h cmd cut) _
  | readComplete => cases run; exact State.readComplete_noBackgroundErase h
  | strikeComplete stuck => cases run; exact State.strikeComplete_noBackgroundErase h stuck
  | markerRetirement elapsed stuck => cases run; exact State.markerRetirement_noBackgroundErase h elapsed stuck
  | bodyErase elapsed stuck => cases run; exact State.stageComplete_noBackgroundErase h _ _ elapsed stuck
  | markerErase elapsed stuck => cases run; exact State.stageComplete_noBackgroundErase h _ _ elapsed stuck
  | systemFrameErase elapsed stuck => cases run; exact State.stageComplete_noBackgroundErase h _ _ elapsed stuck
  | blankVerify => cases run; exact State.blankVerify_noBackgroundErase h
  | quantum => cases run; exact State.quantum_noBackgroundErase h
  | suspension elapsed undone => cases run; exact State.suspension_noBackgroundErase h elapsed undone
  | _ =>
    rw [(exec_linkPortOnly rfl run).ctrl]
    exact h

theorem State.quiet_iff (s : State) :
    State.quiet s = true ↔ s.part = .ready ∧ s.engine.job = none ∧ s.intake.waiting = [] := by
  simp [State.quiet, and_assoc]

/-- Where the foreground is not quiet BACKGROUND_START and BACKGROUND_RESUME do not take place. -/
theorem State.backgroundStart_of_not_quiet {s : State} (busy : ¬ State.quiet s = true) : State.backgroundStart s = s := by
  unfold State.backgroundStart
  split
  · exact if_neg busy
  · rfl

theorem State.backgroundResume_of_not_quiet {s : State} (busy : ¬ State.quiet s = true) : State.backgroundResume s = s := by
  unfold State.backgroundResume
  split
  · exact if_neg busy
  · rfl

/-- A step that brings a background ERASE to progress finds the foreground quiet (R117). -/
theorem quiet_of_backgroundErasing {s t : State} (h : step s = .next t) (erasing : State.backgroundErasing t)
    (before : ¬ State.backgroundErasing s) : State.quiet s = true := by
  rw [State.not_backgroundErasing_iff] at before
  by_contra busy
  refine (State.not_backgroundErasing_iff t).mpr ?_ erasing
  unfold step at h
  split at h
  · cases h
    exact State.tick_noBackgroundErase before
  · next c rest _ =>
    have same (unchanged : exec c { s with pending := rest } = .next { s with pending := rest }) :
        Controller.NoBackgroundErase t.ctrl := by
      cases unchanged.symm.trans h
      exact before
    by_cases start : c = .backgroundStart
    · subst start
      exact same (congrArg _ (State.backgroundStart_of_not_quiet (s := { s with pending := rest }) busy))
    · by_cases resume : c = .backgroundResume
      · subst resume
        exact same (congrArg _ (State.backgroundResume_of_not_quiet (s := { s with pending := rest }) busy))
      · exact exec_noBackgroundErase (s := { s with pending := rest }) start resume before h

end Sys2Proof.Machine
end

section
/-! The ends of a background ERASE (R113, R119, R130): the free pool, the retry, its suspension, the mark strike; and the claim
that waited begins (R114). -/

namespace Sys2Proof.Machine

/-! ### The claim that waits at an end -/

/-- An ERASE begins at the first stage of its frame (R112). -/
theorem Erase.start_eq (f : Frame) :
    Erase.start f =
      { frame := f, attempt := .first, progress := 0, stage := if f.val < 3 then .systemErase else .markerRetirement } := by
  simp [Erase.start, firstStage, systemFrame]

/-- `c` taken in `s` ends the background's operation, `t` being the part with what the end changes besides: the claim that waits
begins, and with none waiting nothing progresses (R114). -/
def State.backgroundEnds (c : Instr) (s t : State) : Prop :=
  (s.ctrl.waiting = none → exec c s = .next { t with ctrl := { t.ctrl with op := none } }) ∧
    ∀ (k : Claim) (op : Op),
      s.ctrl.waiting = some k → Claim.operation k = some op →
        exec c s = .next { t with ctrl := { t.ctrl with op := some op, waiting := none } }

/-- A background operation that ends with the waiting claim served. -/
theorem State.backgroundEnds_of_serveWaiting {c : Instr} {s t : State} (waiting : t.ctrl.waiting = s.ctrl.waiting)
    (run : exec c s = .next (State.serveWaiting (State.clearOp t))) : State.backgroundEnds c s t := by
  refine ⟨fun quiet => ?_, fun k op waits operation => ?_⟩
  · rw [run, State.serveWaiting_of_none (s := State.clearOp t) (waiting.trans quiet)]
    rfl
  · rw [run, State.serveWaiting_of_operation (s := State.clearOp t) rfl (waiting.trans waits) operation]
    rfl

/-! ### The blank verify -/

theorem removeFrame_of_head {f : Frame} {rest : List Frame} (h : f ∉ rest) : removeFrame f (f :: rest) = rest := by
  simp only [removeFrame, List.filter_cons, ne_eq, not_true, decide_false, Bool.false_eq_true, if_false, List.filter_eq_self,
    decide_eq_true_eq]
  exact fun g hg same => h (same ▸ hg)

/-- A background ERASE that verifies blank moves its frame to the free pool (R130). -/
theorem exec_blankVerify_of_background {s : State} {e : Erase} {since : Nat} {rest : List Frame}
    (ho : s.ctrl.op = some (.erase .background e since)) (stage : e.stage = .blankVerify)
    (blank : Image.blank (Memory.image s.array e.frame) = true) (head : s.pools.reclaim = e.frame :: rest)
    (once : e.frame ∉ rest) :
    exec .blankVerify s =
      .next
        (State.serveWaiting
          (State.clearOp (State.setPools s { s.pools with reclaim := rest, free := s.pools.free ++ [e.frame] }))) := by
  simp only [exec, execBlankVerify, State.blankVerify, ho, stage, blank, if_true, State.eraseVerified, head,
    removeFrame_of_head once]
  rfl

/-! ### A failed attempt -/

section Attempts

variable (s : State) {e : Erase}

theorem State.attemptFailed_background_again (first : e.attempt = .first) (quiet : s.ctrl.waiting = none) :
    State.attemptFailed s .background e = State.setOp s (.erase .background (Erase.retry e) 0) := by
  simp [State.attemptFailed, first, quiet]

/-- The retry is deferred while a claim waits (R119). -/
theorem State.attemptFailed_background_deferred {k : Claim} (first : e.attempt = .first) (waits : s.ctrl.waiting = some k) :
    State.attemptFailed s .background e =
      State.serveWaiting { s with ctrl := { s.ctrl with op := none, suspended := some (Erase.retry e) } } := by
  simp [State.attemptFailed, first, waits]

/-- The frame whose retry failed is marked before any waiting claim is served (R119, R134). -/
theorem State.attemptFailed_background_retry (retry : e.attempt = .retry) :
    State.attemptFailed s .background e = State.setOp s (.strike 2 .background (markStrike e.frame)) := by
  simp [State.attemptFailed, retry, State.eraseFailed]

end Attempts

/-! ### The mark strike -/

/-- The background's mark strike completed: the head of the reclaim queue goes to the bad-frame map, or to the quarantine set
with FAULT_EVENT (R134, R135, R136). -/
theorem exec_strikeComplete_of_background {s : State} {what : Strike} (ho : s.ctrl.op = some (.strike 2 .background what))
    (stuck : FrameBits) {f : Frame} {rest : List Frame} (head : s.pools.reclaim = f :: rest) {m : Memory}
    (hm : m = Memory.strike s.array 2 (Strike.intended what) stuck) {verified : Bool}
    (hv : Strike.verifies what (Memory.image m 2) = verified) :
    exec (.strikeComplete stuck) s =
      .next
        (State.serveWaiting
          (State.clearOp
            (State.setPools (State.systemFailure (State.setArray s m) 2 verified)
              (FramePools.afterMark { s.pools with reclaim := rest } f verified)))) := by
  simp only [exec, execStrikeComplete, State.strikeComplete, ho, ← hm, hv, State.backgroundMarked, State.systemFailure_eq,
    State.setArray_pools, State.clearOp_pools, head]
  rfl

/-- Settles O43: each end but a failed retry frees the controller and serves the claim that waits. -/
theorem backgroundEraseEnds : Obligations.BackgroundEraseEnds := by
  refine ⟨fun f what => ⟨rfl, rfl, by rw [Claim.operation, Erase.start_eq], rfl⟩, fun s => ⟨?_, ?_, ?_⟩⟩
  · intro e since rest ho stage blank head once
    exact State.backgroundEnds_of_serveWaiting rfl (exec_blankVerify_of_background ho stage blank head once)
  · intro e c t fails grant again
    obtain ⟨run, same⟩ := State.exec_of_attemptFails fails
    have ctrl : t.ctrl = s.ctrl := by rw [same]
    have retry : Erase.retry e = again := by
      rw [Erase.retry_eq, if_neg (Nat.not_lt.mpr grant)]
    refine ⟨fun first quiet => ?_, fun k op first waits operation => ?_, fun failed => ?_⟩
    · rw [run, State.attemptFailed_background_again t first (by rw [ctrl]; exact quiet), retry, ← ctrl]
      rfl
    · have waitsT : t.ctrl.waiting = some k := by rw [ctrl]; exact waits
      rw [run, State.attemptFailed_background_deferred t first waitsT, retry]
      rw [State.serveWaiting_of_operation rfl (by exact waitsT) operation]
    · rw [run, State.attemptFailed_background_retry t failed, ← ctrl]
      rfl
  · intro what stuck f rest ho head m
    refine ⟨fun verified => ?_, fun failed => ?_⟩
    · have run := exec_strikeComplete_of_background ho stuck head rfl verified
      rw [State.systemFailure_of_verified] at run
      exact State.backgroundEnds_of_serveWaiting rfl run
    · have run := exec_strikeComplete_of_background ho stuck head rfl failed
      exact State.backgroundEnds_of_serveWaiting rfl run

end Sys2Proof.Machine
end

section
/-! Background reclaim starts, yields after its quantum, and resumes (R115, R116, R117); the names of the controller's state
(R107), of background reclaim's (R129), and the erase record (R124). -/

namespace Sys2Proof.Machine

/-! ### Start, resume, quantum and suspension -/

theorem exec_backgroundStart_of_idle {s : State} (quiet : State.quiet s = true) (idle : s.ctrl.op = none)
    (unsuspended : s.ctrl.suspended = none) {f : Frame} {rest : List Frame} (head : s.pools.reclaim = f :: rest) :
    exec .backgroundStart s = .next (State.setOp s (.erase .background (Erase.start f) 0)) := by
  simp [exec, execBackgroundStart, State.backgroundStart, quiet, idle, unsuspended, head]

theorem exec_backgroundResume_of_suspended {s : State} (quiet : State.quiet s = true) (idle : s.ctrl.op = none) {e : Erase}
    (suspended : s.ctrl.suspended = some e) :
    exec .backgroundResume s =
      .next { s with ctrl := { s.ctrl with op := some (.erase .background e 0), suspended := none } } := by
  simp [exec, execBackgroundResume, State.backgroundResume, quiet, idle, suspended]

section Progress

variable {s : State} {e : Erase} {since : Nat} (ho : s.ctrl.op = some (.erase .background e since))
include ho

theorem exec_quantum_of_background (short : since < 400) (stage : e.stage ≠ .markerRetirement) :
    exec .quantum s =
      .next (State.setOp s (.erase .background { e with progress := e.progress + (400 - since) } 400)) := by
  simp [exec, execQuantum, State.quantum, ho, short, stage]

/-- After the quantum the suspension keeps the erase and serves the claim that waits (R116). -/
theorem exec_suspension_of_background {elapsed : Nat} (undone : FrameBits) (done : 400 ≤ since + elapsed)
    (stage : e.stage = .bodyErase ∨ e.stage = .markerErase) {k : Claim} (waits : s.ctrl.waiting = some k) :
    exec (.suspension elapsed undone) s =
      .next
        (State.serveWaiting
          { s with
              array := Memory.eraseStage s.array e.frame e.stage undone
              ctrl := { s.ctrl with op := none, suspended := some { e with progress := e.progress + elapsed } } }) := by
  simp [exec, execSuspension, State.suspension, ho, waits, done, stage]

theorem exec_suspension_of_short {elapsed : Nat} (undone : FrameBits) (short : since + elapsed < 400) :
    exec (.suspension elapsed undone) s = .next s := by
  have owed : ¬ 400 ≤ since + elapsed := Nat.not_le.mpr short
  cases hw : s.ctrl.waiting <;> simp [exec, execSuspension, State.suspension, ho, hw, owed]

end Progress

/-! ### The controller's state -/

/-- Each name of the controller's state says what progresses and what is suspended (R107). -/
theorem Controller.named_iff (c : Controller) :
    (Controller.named c = .idle ↔ c.op = none ∧ c.suspended = none) ∧
      (Controller.named c = .reading ↔ ∃ f : Frame, c.op = some (.read f)) ∧
      (Controller.named c = .striking ↔ ∃ (f : Frame) (k : Claimant) (what : Strike), c.op = some (.strike f k what)) ∧
      (Controller.named c = .erasing ↔ ∃ (k : Claimant) (e : Erase) (since : Nat), c.op = some (.erase k e since)) ∧
      (Controller.named c = .eraseSuspended ↔ c.op = none ∧ c.suspended ≠ none) := by
  rcases ho : c.op with _ | op
  · cases hs : c.suspended <;> simp [Controller.named, ho, hs]
  · cases op <;> simp [Controller.named, ho]

/-! ### Background reclaim -/

/-- Nothing of the background's progresses. -/
def Controller.Foreground (c : Controller) : Prop :=
  (∀ (e : Erase) (since : Nat), c.op ≠ some (.erase .background e since)) ∧
    ∀ (f : Frame) (what : Strike), c.op ≠ some (.strike f .background what)

/-- Either nothing of the background's progresses, or its ERASE, or its mark strike. -/
theorem Controller.foreground_or (c : Controller) :
    Controller.Foreground c ∨ (∃ e since, c.op = some (.erase .background e since)) ∨
      ∃ f what, c.op = some (.strike f .background what) := by
  by_cases erases : ∃ e since, c.op = some (.erase .background e since)
  · exact .inr (.inl erases)
  · by_cases strikes : ∃ f what, c.op = some (.strike f .background what)
    · exact .inr (.inr strikes)
    · exact .inl ⟨fun e since h => erases ⟨e, since, h⟩, fun f what h => strikes ⟨f, what, h⟩⟩

theorem Controller.reclaimState_of_foreground {c : Controller} (h : Controller.Foreground c) :
    Controller.reclaimState c = if c.suspended = none then .idle else .suspended := by
  obtain ⟨erases, strikes⟩ := h
  unfold Controller.reclaimState
  split
  · next ho => exact absurd ho (erases _ _)
  · next ho => exact absurd ho (strikes _ _)
  · next suspended _ _ => simp [suspended]
  · next unsuspended _ _ => simp [unsuspended]

theorem Controller.reclaimState_of_erase {c : Controller} {e : Erase} {since : Nat}
    (ho : c.op = some (.erase .background e since)) :
    Controller.reclaimState c = if e.stage = .blankVerify then .verifying else .erasing := by
  simp [Controller.reclaimState, ho]

theorem Controller.reclaimState_of_strike {c : Controller} {f : Frame} {what : Strike}
    (ho : c.op = some (.strike f .background what)) : Controller.reclaimState c = .verifying := by
  simp [Controller.reclaimState, ho]

/-- Each state of background reclaim says what of its progresses and what is suspended (R129). -/
theorem Controller.reclaimState_iff (c : Controller) :
    (Controller.reclaimState c = .idle ↔ Controller.Foreground c ∧ c.suspended = none) ∧
      (Controller.reclaimState c = .suspended ↔ Controller.Foreground c ∧ c.suspended ≠ none) ∧
      (Controller.reclaimState c = .erasing ↔
        ∃ (e : Erase) (since : Nat), c.op = some (.erase .background e since) ∧ e.stage ≠ .blankVerify) ∧
      (Controller.reclaimState c = .verifying ↔
        (∃ (e : Erase) (since : Nat), c.op = some (.erase .background e since) ∧ e.stage = .blankVerify) ∨
          ∃ (f : Frame) (what : Strike), c.op = some (.strike f .background what)) := by
  obtain foreground | ⟨e, since, ho⟩ | ⟨f, what, ho⟩ := Controller.foreground_or c
  · have ⟨erases, strikes⟩ := foreground
    rw [Controller.reclaimState_of_foreground foreground]
    by_cases hs : c.suspended = none <;> simp [hs, foreground, erases, strikes]
  · have busy : ¬ Controller.Foreground c := fun ⟨erases, _⟩ => erases e since ho
    rw [Controller.reclaimState_of_erase ho]
    by_cases stage : e.stage = .blankVerify <;> simp [stage, busy, ho]
  · have busy : ¬ Controller.Foreground c := fun ⟨_, strikes⟩ => strikes f what ho
    rw [Controller.reclaimState_of_strike ho]
    simp [busy, ho]

/-! ### The erase record -/

/-- With nothing of the background's progressing and no demand erase, the record names the suspended erase, if any (R124). -/
theorem State.eraseRecord_of_foreground {s : State} (foreground : Controller.Foreground s.ctrl)
    (noDemand : ∀ (cmd : Command) (w : Writing), s.engine.job ≠ some { cmd := cmd, step := .takeErase w }) :
    State.eraseRecord s = s.ctrl.suspended.map fun e => (e.frame, false) := by
  obtain ⟨erases, strikes⟩ := foreground
  unfold State.eraseRecord
  split
  · next ho => exact absurd ho (erases _ _)
  · next ho => exact absurd ho (strikes _ _)
  · next hj => exact absurd hj (noDemand _ _)
  · rfl

/-- Settles O44: what each event does when it takes place, and that no other brings a background ERASE to progress. -/
theorem backgroundEraseStartsYieldsResumes : Obligations.BackgroundEraseStartsYieldsResumes := by
  refine ⟨fun s ready job queue idle => ?_, fun s e since elapsed undone ho => ?_, fun s t h erasing before => ?_,
    Controller.named_iff, fun s => ?_⟩
  · have quiet : State.quiet s = true := (State.quiet_iff s).mpr ⟨ready, job, queue⟩
    refine ⟨fun f rest unsuspended head grant => ?_,
      fun e suspended => exec_backgroundResume_of_suspended quiet idle suspended⟩
    rw [exec_backgroundStart_of_idle quiet idle unsuspended head, Erase.start_of_grant grant]
    rfl
  · refine ⟨fun short stage => exec_quantum_of_background ho short stage, fun k op done stage waits operation => ?_,
      fun short => exec_suspension_of_short ho undone short⟩
    rw [exec_suspension_of_background ho undone done stage waits,
      State.serveWaiting_of_operation rfl (by exact waits) operation]
  · exact (State.quiet_iff s).mp (quiet_of_backgroundErasing h erasing before)
  · intro foreground
    obtain ⟨reclaimIdle, suspended, erasing, verifying⟩ := Controller.reclaimState_iff s.ctrl
    refine ⟨reclaimIdle, suspended, erasing, verifying, fun e since ho => ?_, fun f g what rest ho head => ?_,
      fun e since cmd w ho hj => ?_, State.eraseRecord_of_foreground⟩
    · simp [State.eraseRecord, ho]
    · simp [State.eraseRecord, ho, head]
    · simp [State.eraseRecord, ho, hj]

end Sys2Proof.Machine
end

section
/-! PURGE ORPHANS (R139, R140) and the takes that find the free pool empty (R131, R132). -/

namespace Sys2Proof.Machine

/-! ### PURGE ORPHANS -/

/-- An insertion keeps a set of frames ascending. -/
theorem pairwise_insertFrame {f : Frame} {frames : List Frame} (ascending : frames.Pairwise (· < ·)) :
    (insertFrame f frames).Pairwise (· < ·) := by
  induction frames with
  | nil => simp [insertFrame]
  | cons g rest ih =>
    have ⟨below, rests⟩ := List.pairwise_cons.mp ascending
    unfold insertFrame
    split
    · next lt =>
      refine List.pairwise_cons.mpr ⟨fun h hh => ?_, ascending⟩
      rcases List.mem_cons.mp hh with rfl | hh
      · exact lt
      · exact lt.trans (below h hh)
    · next ge =>
      split
      · exact ascending
      · next ne =>
        refine List.pairwise_cons.mpr ⟨fun h hh => ?_, ih rests⟩
        rcases mem_insertFrame.mp hh with rfl | hh
        · exact lt_of_le_of_ne (not_lt.mp ge) (Ne.symm ne)
        · exact below h hh

/-- Settles O23: the members are struck in the order of the list, each completion going to the command in progress. -/
theorem purgeOrphansMovesMembers : Obligations.PurgeOrphansMovesMembers := by
  refine ⟨fun f g frames => ⟨mem_insertFrame, pairwise_insertFrame⟩, fun s cmd rest due => ?_, ?_⟩
  · have run : exec .purgeOrphans s = .next (State.runPurgeOrphans (State.headLeft s rest) cmd) :=
      congrArg _ (State.dispatch_of_due due State.runPurgeOrphans)
    refine ⟨fun empty => exec_endsAtDispatch due run ?_, fun f members head => ?_⟩
    · simp [State.runPurgeOrphans, State.purgeNext, empty]
    · refine State.dispatchClaims_of_claimStep rfl rfl (run.trans ?_)
      simp [State.runPurgeOrphans, State.purgeNext, head, markerStrike]
  · intro s cmd f members moved failed what stuck ho grant work going hj m failed' t
    have run := exec_strikeComplete_of_grant (stuck := stuck) work ho grant hj rfl
    refine ⟨fun g more next => ?_, fun last => ?_⟩
    · subst next
      exact run.trans (congrArg _ (State.claimStep_clearOp t (op := .strike g .foreground _) rfl cmd _))
    · subst last
      exact run.trans (congrArg _ (State.post_of_not_pending (s := State.clearOp t) going cmd _))

/-! ### Takes from an empty pool -/

section Takes

variable {s : State} (cmd : Command) (w : Writing)

/-- A progressing background ERASE is taken over where it stands (R118, R131). -/
theorem State.demandReclaim_of_backgroundErase {e : Erase} {since : Nat} (none : s.ctrl.suspended = none)
    (ho : s.ctrl.op = some (.erase .background e since)) :
    State.demandReclaim s cmd w =
      { State.goStep s cmd (.takeErase w) with ctrl := { s.ctrl with op := some (.erase .foreground e since) } } := by
  simp [State.demandReclaim, none, ho]

/-- A background mark strike is waited for (R131). -/
theorem State.demandReclaim_of_backgroundStrike {g : Frame} {what : Strike} (none : s.ctrl.suspended = none)
    (ho : s.ctrl.op = some (.strike g .background what)) :
    State.demandReclaim s cmd w = State.claimStep s cmd (.takeWait w) .demand := by
  simp [State.demandReclaim, none, ho]

/-- The take that waited for a background mark strike goes on when its demand claim is served (R131). -/
theorem State.serveWaiting_of_demand (waits : s.ctrl.waiting = some .demand)
    (hj : s.engine.job = some { cmd := cmd, step := .takeWait w }) :
    State.serveWaiting s = State.take { s with ctrl := { s.ctrl with waiting := none } } cmd w := by
  simp [State.serveWaiting, waits, hj]

variable {w}

/-- With the reclaim queue empty too the command ends with FULL (R132). -/
theorem State.demandNext_of_empty (empty : s.pools.reclaim = []) :
    State.demandNext s cmd w = State.post s cmd (Writing.failure w .full) := by
  simp [State.demandNext, empty, State.takeFails]

/-- The head of the reclaim queue is erased from its first attempt (R131). -/
theorem State.demandNext_of_head (idle : s.ctrl.op = none) {g : Frame} {more : List Frame}
    (head : s.pools.reclaim = g :: more) (grant : 3 ≤ g.val) :
    State.demandNext s cmd w =
      State.wentOn s cmd (.takeErase w)
        (.erase .foreground { frame := g, attempt := .first, stage := .markerRetirement, progress := 0 } 0) := by
  simp only [State.demandNext, head]
  exact State.claimStep_of_idle idle (by rw [Claim.operation, Erase.start_of_grant grant]) cmd _

end Takes

/-- A take fails for a record by its command: ISSUE names its key, a relocation its old frame as well (R72, R80). -/
theorem Writing.failure_eq (w : Writing) (outcome : Code) :
    Writing.failure w outcome =
      { outcome := outcome, flags := {}
        payload :=
          match w.old with
          | none => .issue w.record.key none none none w.failed
          | some o =>
            .relocation w.record.key (some o.frame) (some o.gen) none (some o.remaining) (some o.topups) w.failed } := by
  unfold Writing.failure
  cases w.old <;> rfl

/-- The take that goes on with the reclaim queue of `t`: the command ends with FULL, or erases the queue's head (R131, R132). -/
theorem exec_demandNext {c : Instr} {s t : State} {ctrl : Controller} {cmd : Command} {w : Writing}
    (going : t.intake.restartPending = false) (same : t.ctrl = ctrl)
    (run : exec c s = .next (State.demandNext { t with ctrl := { ctrl with op := none, waiting := none } } cmd w)) :
    (t.pools.reclaim = [] →
        exec c s =
          .next
            (State.posted { t with ctrl := { ctrl with op := none, waiting := none } } cmd (Writing.failure w .full))) ∧
      ∀ (g : Frame) (more : List Frame),
        t.pools.reclaim = g :: more → 3 ≤ g.val →
          exec c s =
            .next
              (State.wentOn t cmd (.takeErase w)
                (.erase .foreground { frame := g, attempt := .first, stage := .markerRetirement, progress := 0 } 0)) := by
  subst same
  refine ⟨fun empty => ?_, fun g more head grant => ?_⟩
  · rw [run, State.demandNext_of_empty cmd (by exact empty), State.post_of_not_pending (by exact going)]
  · rw [run, State.demandNext_of_head cmd (by rfl) (by exact head) grant]
    rfl

/-- Settles O19: a take from an empty pool is demand reclaim, at its dispatch and after each end of what it waits for. -/
theorem takeFromEmptyPool : Obligations.TakeFromEmptyPool := by
  refine ⟨?_, ?_⟩
  · intro s cmd rest r p due given policy window absent free w inForeground
    have passes : (p.windowRequired && r.window.isNone) = false := by
      rcases window with optional | present
      · simp [optional]
      · simp [Option.isNone_eq_false_iff.mpr (Option.isSome_iff_ne_none.mpr present)]
    have taken : State.runIssue (State.headLeft s rest) cmd = State.demandReclaim (State.headLeft s rest) cmd w :=
      (State.runIssue_of_newKey (s := State.headLeft s rest) given policy passes absent).trans
        (State.take_of_empty (s := State.headLeft s rest) free cmd w)
    have run : exec .issue s = .next (State.demandReclaim (State.headLeft s rest) cmd w) :=
      congrArg _ ((State.dispatch_of_due due State.runIssue).trans taken)
    refine ⟨fun e he => ?_, fun e since none ho => ?_, fun g what none ho => ?_, fun f more none idle head grant => ?_,
      fun none idle empty => ?_⟩
    · exact run.trans (congrArg _ (State.demandReclaim_of_suspended (s := State.headLeft s rest) he cmd w))
    · simp only [inForeground]
      rw [run, State.demandReclaim_of_backgroundErase (s := State.headLeft s rest) cmd w none ho]
      simp [State.headLeft, State.goStep, none]
    · rw [run, State.demandReclaim_of_backgroundStrike (s := State.headLeft s rest) cmd w none ho,
        State.claimStep_of_busy (s := State.headLeft s rest) ho]
      rfl
    · rw [run, State.demandReclaim_of_idle (s := State.headLeft s rest) none idle,
        State.demandNext_of_head (s := State.headLeft s rest) cmd idle head grant]
      rfl
    · refine exec_endsAtDispatch due run ?_
      rw [State.demandReclaim_of_idle (s := State.headLeft s rest) none idle,
        State.demandNext_of_empty (s := State.headLeft s rest) cmd empty]
      rfl
  · intro s cmd w work going free unsuspended full erases goesOn marked
    have goesOn_of_demandNext {c : Instr} {t : State} (same : t.ctrl = s.ctrl) (going : t.intake.restartPending = false)
        (run : exec c s = .next (State.demandNext { t with ctrl := { s.ctrl with op := none, waiting := none } } cmd w)) :
        goesOn c t t.pools.reclaim := by
      have := exec_demandNext going same run
      rwa [Writing.failure_eq] at this
    refine ⟨?_, ?_, ?_, ?_⟩
    · intro what stuck f left ho waits hj head m
      let t : State := marked m f left (Strike.verifies what (Memory.image m 2))
      have run : exec (.strikeComplete stuck) s = .next (State.serveWaiting (State.clearOp t)) := by
        rw [exec_strikeComplete_of_background ho stuck head rfl rfl, State.systemFailure_eq, FramePools.afterMark_eq]
        rfl
      refine goesOn_of_demandNext (t := t) rfl going ?_
      rw [run, State.serveWaiting_of_demand (s := State.clearOp t) cmd w waits hj, State.take_of_empty (by exact free),
        State.demandReclaim_of_idle (by exact unsuspended) (by rfl)]
      rfl
    · intro e since ho stage grant hj blank
      rw [exec_blankVerify_of_job work hj ho stage blank]
      exact congrArg _
        (State.claimStep_clearOp (State.setHeld (State.setPools s _) (some e.frame)) (k := .strike e.frame _) rfl cmd _)
    · intro e c t fails retry grant hj
      rw [exec_attemptFails_of_job work hj fails retry, State.systemFailure_of_grant grant]
      exact congrArg _ (State.claimStep_clearOp t (k := .strike 2 _) rfl cmd _)
    · intro what stuck f ho quiet hj m left
      refine goesOn_of_demandNext (t := marked m f left _) rfl going ?_
      rw [exec_strikeComplete_of_job work hj ho stuck rfl rfl, State.systemFailure_eq]
      simp only [State.engineStruck, State.demandMarked, FramePools.afterMark_eq]
      rw [← quiet]
      rfl

end Sys2Proof.Machine
end

section
/-! FAULT_EVENT (R135, R136, R137) while the command in progress, a mount and the waiting claims go on: none of them sets it, and
only the clearing for a RESTART clears it. As for the background ERASE, `-implicitDefEqProofs` has `simp` discharge the
hypothesis of the lemmas here on the updated state. -/

namespace Sys2Proof.Machine

/-- FAULT_EVENT is `b`, and set only with no RESTART pending, whose clearing would clear it (R137, R179). -/
def LinkPort.FaultIs (b : Bool) (link : LinkPort) (intake : Intake) : Prop :=
  link.faultEvent = b ∧ (b = true → intake.restartPending = false)

/-- The same of the whole part. -/
abbrev State.FaultIs (b : Bool) (s : State) : Prop := LinkPort.FaultIs b s.link s.intake

section Continuations

variable {s : State} {b : Bool} (h : State.FaultIs b s)
include h

/-! ### Posting and takes -/

/-- With a RESTART pending FAULT_EVENT was not to stand set, and its clearing clears it (R179). -/
@[simp] theorem State.clearForRestart_faultIs (pending : s.intake.restartPending = true) :
    State.FaultIs b (State.clearForRestart s) := by
  obtain ⟨-, going⟩ := h
  cases b with
  | false => exact ⟨rfl, nofun⟩
  | true => simp [going rfl] at pending

@[simp] theorem State.post_faultIs (cmd : Command) (r : Result) : State.FaultIs b (State.post s cmd r) := by
  unfold State.post
  split
  · next pending => exact State.clearForRestart_faultIs h pending
  · exact h

@[simp] theorem State.demandNext_faultIs (cmd : Command) (w : Writing) : State.FaultIs b (State.demandNext s cmd w) := by
  unfold State.demandNext
  split <;> simp -implicitDefEqProofs [h, State.FaultIs, State.takeFails]

@[simp] theorem State.take_faultIs (cmd : Command) (w : Writing) : State.FaultIs b (State.take s cmd w) := by
  unfold State.take
  split
  · simp -implicitDefEqProofs [h, State.FaultIs, State.writeInto]
  · unfold State.demandReclaim
    split <;> simp -implicitDefEqProofs [h, State.FaultIs]

/-! ### The command in progress -/

@[simp] theorem State.newFrameReleased_faultIs (cmd : Command) (w : Writing) (f : Frame) (verified : Bool) :
    State.FaultIs b (State.newFrameReleased s cmd w f verified) := by
  unfold State.newFrameReleased
  dsimp only
  split <;> simp -implicitDefEqProofs [h, State.FaultIs]

@[simp] theorem State.newFrameLive_faultIs (cmd : Command) (w : Writing) (f : Frame) :
    State.FaultIs b (State.newFrameLive s cmd w f) := by
  unfold State.newFrameLive
  split <;> simp -implicitDefEqProofs [h, State.FaultIs]

@[simp] theorem State.movedDone_faultIs (cmd : Command) (w : Writing) (o : OldGrant) (new : Frame) (verified : Bool) :
    State.FaultIs b (State.movedDone s cmd w o new verified) := by
  unfold State.movedDone
  split <;> simp -implicitDefEqProofs [h, State.FaultIs, State.fallback]

@[simp] theorem State.retiredDone_faultIs (cmd : Command) (e : Ending) (f : Frame) (verified : Bool) :
    State.FaultIs b (State.retiredDone s cmd e f verified) := by
  unfold State.retiredDone
  split <;> simp -implicitDefEqProofs [h, State.FaultIs, State.fallback]

@[simp] theorem State.retire_faultIs (cmd : Command) (e : Ending) (f : Frame) (bits : Byte) :
    State.FaultIs b (State.retire s cmd e f bits) := by
  unfold State.retire
  split <;> simp -implicitDefEqProofs [h, State.FaultIs]

@[simp] theorem State.formatSweep_faultIs (cmd : Command) (f : Formatting) (n : Nat) :
    State.FaultIs b (State.formatSweep s cmd f n) := by
  unfold State.formatSweep
  split <;> simp -implicitDefEqProofs [h, State.FaultIs, State.formatRecordStrike]

@[simp] theorem State.formatErased_faultIs (cmd : Command) (f : Formatting) (g : Frame) (verified : Bool) :
    State.FaultIs b (State.formatErased s cmd f g verified) := by
  unfold State.formatErased
  repeat' split
  all_goals simp -implicitDefEqProofs [h, State.FaultIs]

@[simp] theorem State.formatMarked_faultIs (cmd : Command) (f : Formatting) (g : Frame) (verified : Bool) :
    State.FaultIs b (State.formatMarked s cmd f g verified) := by
  unfold State.formatMarked
  split <;> simp -implicitDefEqProofs [h, State.FaultIs]

@[simp] theorem State.formatWritten_faultIs (cmd : Command) (f : Formatting) (verified : Bool) :
    State.FaultIs b (State.formatWritten s cmd f verified) := by
  unfold State.formatWritten
  split
  · next pending => exact State.clearForRestart_faultIs h pending
  · exact h

@[simp] theorem State.lookupRead_faultIs (cmd : Command) (snap : Snapshot) (e : Entry) (f : Frame) (img : Image) :
    State.FaultIs b (State.lookupRead s cmd snap e f img) := by
  unfold State.lookupRead
  split <;> simp -implicitDefEqProofs [h, State.FaultIs, State.markCorrupt]

@[simp] theorem State.drawRead_faultIs (cmd : Command) (snap : Snapshot) (e : Entry) (f : Frame) (img : Image) :
    State.FaultIs b (State.drawRead s cmd snap e f img) := by
  unfold State.drawRead
  dsimp only
  repeat' split
  all_goals simp -implicitDefEqProofs [h, State.FaultIs, State.markCorrupt]

@[simp] theorem State.drawStruckB_faultIs (cmd : Command) (d : Drawing) (e : Entry) (verifiedA : Bool) (f : Frame)
    (verifiedB : Bool) : State.FaultIs b (State.drawStruckB s cmd d e verifiedA f verifiedB) := by
  unfold State.drawStruckB
  repeat' split
  all_goals simp -implicitDefEqProofs [h, State.FaultIs]

@[simp] theorem State.drawReadBack_faultIs (cmd : Command) (d : Drawing) (e : Entry) (img : Image) :
    State.FaultIs b (State.drawReadBack s cmd d e img) := by
  unfold State.drawReadBack
  split <;> simp -implicitDefEqProofs [h, State.FaultIs, State.markCorrupt]

@[simp] theorem State.relocationCorrupt_faultIs (cmd : Command) (e : Entry) (img : Image) :
    State.FaultIs b (State.relocationCorrupt s cmd e img) := by
  simp -implicitDefEqProofs [h, State.FaultIs, State.relocationCorrupt, State.markCorrupt]

@[simp] theorem State.topupRead_faultIs (cmd : Command) (snap : Snapshot) (e : Entry) (f : Frame) (img : Image) :
    State.FaultIs b (State.topupRead s cmd snap e f img) := by
  unfold State.topupRead
  dsimp only
  repeat' split
  all_goals simp -implicitDefEqProofs [h, State.FaultIs]

@[simp] theorem State.moveRead_faultIs (cmd : Command) (e : Entry) (f : Frame) (img : Image) :
    State.FaultIs b (State.moveRead s cmd e f img) := by
  unfold State.moveRead
  dsimp only
  repeat' split
  all_goals simp -implicitDefEqProofs [h, State.FaultIs]

@[simp] theorem State.revokeRead_faultIs (cmd : Command) (snap : Snapshot) (e : Entry) (f : Frame) (img : Image) :
    State.FaultIs b (State.revokeRead s cmd snap e f img) := by
  unfold State.revokeRead
  dsimp only
  repeat' split
  all_goals simp -implicitDefEqProofs [h, State.FaultIs, State.markCorrupt]

@[simp] theorem State.configureStruck_faultIs (cmd : Command) (k : ClassNo) (p : Policy) (verified : Bool) :
    State.FaultIs b (State.configureStruck s cmd k p verified) := by
  unfold State.configureStruck
  split <;> simp -implicitDefEqProofs [h, State.FaultIs]

@[simp] theorem State.purgeNext_faultIs (cmd : Command) (members : List Frame) (moved failed : Nat) :
    State.FaultIs b (State.purgeNext s cmd members moved failed) := by
  unfold State.purgeNext
  split <;> simp -implicitDefEqProofs [h, State.FaultIs]

@[simp] theorem State.demandErased_faultIs (cmd : Command) (w : Writing) (f : Frame) (verified : Bool) :
    State.FaultIs b (State.demandErased s cmd w f verified) := by
  unfold State.demandErased
  split <;> simp -implicitDefEqProofs [h, State.FaultIs, State.writeInto]

@[simp] theorem State.fallbackErased_faultIs (cmd : Command) (fallback lost : Result) (f : Frame) (verified : Bool) :
    State.FaultIs b (State.fallbackErased s cmd fallback lost f verified) := by
  unfold State.fallbackErased
  split <;> simp -implicitDefEqProofs [h, State.FaultIs]

@[simp] theorem State.engineRead_faultIs (j : Job) (f : Frame) (img : Image) :
    State.FaultIs b (State.engineRead s j f img) := by
  unfold State.engineRead
  split <;> simp -implicitDefEqProofs [h, State.FaultIs, State.configureRead]

@[simp] theorem State.engineStruck_faultIs (j : Job) (f : Frame) (verified : Bool) :
    State.FaultIs b (State.engineStruck s j f verified) := by
  unfold State.engineStruck
  repeat' split
  all_goals
    simp -implicitDefEqProofs [h, State.FaultIs, State.drawStruckA, State.demandMarked, State.newFrameFailed,
      State.fallbackMarked, State.purgeStruck]

@[simp] theorem State.engineErased_faultIs (j : Job) (f : Frame) (verified : Bool) :
    State.FaultIs b (State.engineErased s j f verified) := by
  unfold State.engineErased
  split <;> simp -implicitDefEqProofs [h, State.FaultIs]

/-- A waiting claim is served in the foreground (R114). -/
@[simp] theorem State.serveWaiting_faultIs : State.FaultIs b (State.serveWaiting s) := by
  unfold State.serveWaiting
  dsimp only
  repeat' split
  all_goals simp -implicitDefEqProofs [h, State.FaultIs]

/-! ### A mount -/

@[simp] theorem State.mountEnds_faultIs (part : PartState) : State.FaultIs b (State.mountEnds s part) := by
  unfold State.mountEnds
  dsimp only
  split
  · exact State.post_faultIs (by exact h) _ _
  · exact h

@[simp] theorem State.placeFrame_faultIs (q : Frame × Placement) : State.FaultIs b (State.placeFrame s q) := by
  unfold State.placeFrame
  repeat' split
  all_goals exact h

theorem State.tick_faultIs : State.FaultIs b (State.tick s) := by
  unfold State.tick State.walkOn
  repeat' split
  all_goals simp -implicitDefEqProofs [h, State.FaultIs]

@[simp] theorem State.resolve_faultIs (w : MountWork) (todo winners : List Candidate) :
    State.FaultIs b (State.resolve s w todo winners) := by
  induction todo generalizing winners with
  | nil => exact h
  | cons q todo ih =>
    unfold State.resolve
    split
    · exact ih _
    · simp -implicitDefEqProofs [h, State.FaultIs]

@[simp] theorem State.scanFrom_faultIs (w : MountWork) (n : Nat) :
    State.FaultIs b (State.scanFrom s w n) := by
  unfold State.scanFrom
  split <;> simp -implicitDefEqProofs [h, State.FaultIs]

@[simp] theorem State.scanned_faultIs (w : MountWork) (f : Frame) (found : Scanned) :
    State.FaultIs b (State.scanned s w f found) := by
  unfold State.scanned
  split <;> simp -implicitDefEqProofs [h, State.FaultIs]

@[simp] theorem State.scanRead_faultIs (w : MountWork) (f : Frame) (img : Image) :
    State.FaultIs b (State.scanRead s w f img) := by
  unfold State.scanRead
  repeat' split
  all_goals simp -implicitDefEqProofs [h, State.FaultIs]

@[simp] theorem State.mountFormat_faultIs (w : MountWork) (img : Image) :
    State.FaultIs b (State.mountFormat s w img) := by
  unfold State.mountFormat
  repeat' split
  all_goals simp -implicitDefEqProofs [h, State.FaultIs]

@[simp] theorem State.mountGoesOn_faultIs (w : MountWork) (f : Frame) (next : MountNext) :
    State.FaultIs b (State.mountGoesOn s w f next) := by
  unfold State.mountGoesOn
  split <;> simp -implicitDefEqProofs [h, State.FaultIs]

@[simp] theorem State.mountRead_faultIs (w : MountWork) (f : Frame) (img : Image) :
    State.FaultIs b (State.mountRead s w f img) := by
  unfold State.mountRead
  split <;> simp -implicitDefEqProofs [h, State.FaultIs, State.mountMap, State.mountPolicies]

@[simp] theorem State.mountStruck_faultIs (w : MountWork) (f : Frame) (verified : Bool) :
    State.FaultIs b (State.mountStruck s w f verified) := by
  unfold State.mountStruck
  repeat' split
  all_goals simp -implicitDefEqProofs [h, State.FaultIs, State.mountFallback]

@[simp] theorem State.mountErased_faultIs (w : MountWork) (f : Frame) (verified : Bool) :
    State.FaultIs b (State.mountErased s w f verified) := by
  unfold State.mountErased
  repeat' split
  all_goals simp -implicitDefEqProofs [h, State.FaultIs]

/-! ### Reports -/

@[simp] theorem State.reportRead_faultIs (f : Frame) (img : Image) :
    State.FaultIs b (State.reportRead s f img) := by
  unfold State.reportRead
  split <;> simp -implicitDefEqProofs [h, State.FaultIs]

@[simp] theorem State.reportStrike_faultIs (f : Frame) (verified : Bool) :
    State.FaultIs b (State.reportStrike s f verified) := by
  unfold State.reportStrike
  split <;> simp -implicitDefEqProofs [h, State.FaultIs]

@[simp] theorem State.reportErase_faultIs (f : Frame) (verified : Bool) :
    State.FaultIs b (State.reportErase s f verified) := by
  unfold State.reportErase
  split <;> simp -implicitDefEqProofs [h, State.FaultIs]

/-- A completion that is no failure on a system frame leaves FAULT_EVENT (R136). -/
theorem State.systemFailure_faultIs {f : Frame} {verified : Bool} (fine : f.val < 3 → verified = true) :
    State.FaultIs b (State.systemFailure s f verified) := by
  rwa [State.systemFailure, if_neg (by simpa [systemFrame] using fine)]

@[simp] theorem State.backgroundMarked_faultIs (verified : Bool) :
    State.FaultIs b (State.backgroundMarked s verified) := by
  unfold State.backgroundMarked
  split <;> simp -implicitDefEqProofs [h, State.FaultIs]

/-! ### The events of the array controller -/

theorem State.readComplete_faultIs : State.FaultIs b (State.readComplete s) := by
  unfold State.readComplete
  split
  · exact State.reportRead_faultIs (by exact h) _ _
  · exact h

theorem State.eraseVerified_faultIs (claimant : Claimant) (f : Frame) :
    State.FaultIs b (State.eraseVerified s claimant f) := by
  cases claimant with
  | foreground => exact State.reportErase_faultIs (by exact h) f true
  | background => exact State.serveWaiting_faultIs (by exact h)

/-- A failed attempt that is no failed retry of the foreground's on a system frame leaves FAULT_EVENT (R113, R136). -/
theorem State.attemptFailed_faultIs {claimant : Claimant} {e : Erase}
    (fine : claimant = .foreground → e.attempt = .retry → 3 ≤ e.frame.val) :
    State.FaultIs b (State.attemptFailed s claimant e) := by
  unfold State.attemptFailed
  split
  · next retry =>
    cases claimant with
    | foreground =>
      have grant : ¬ e.frame.val < 3 := Nat.not_lt.mpr (fine rfl retry)
      exact State.reportErase_faultIs (State.systemFailure_faultIs (by exact h) (absurd · grant)) _ _
    | background => exact h
  · split
    · exact State.serveWaiting_faultIs (by exact h)
    · exact h

theorem State.stageComplete_faultIs (stage next : Stage) (elapsed : Nat) (stuck : FrameBits) :
    State.FaultIs b (State.stageComplete s stage next elapsed stuck) := by
  unfold State.stageComplete
  repeat' split
  all_goals exact h

theorem State.quantum_faultIs : State.FaultIs b (State.quantum s) := by
  unfold State.quantum
  repeat' split
  all_goals exact h

theorem State.suspension_faultIs (elapsed : Nat) (undone : FrameBits) :
    State.FaultIs b (State.suspension s elapsed undone) := by
  unfold State.suspension
  split
  · split
    · exact State.serveWaiting_faultIs (by exact h)
    · exact h
  · exact h

theorem State.backgroundStart_faultIs : State.FaultIs b (State.backgroundStart s) := by
  unfold State.backgroundStart
  repeat' split
  all_goals exact h

theorem State.backgroundResume_faultIs : State.FaultIs b (State.backgroundResume s) := by
  unfold State.backgroundResume
  repeat' split
  all_goals exact h

/-! ### Dispatches -/

section Dispatches

omit h in
/-- A dispatch does to FAULT_EVENT what its first step does. -/
theorem State.dispatch_faultIs (h : State.FaultIs b s) {run : State → Command → State}
    (runs : ∀ t cmd, State.FaultIs b t → State.FaultIs b (run t cmd)) (code : Byte) :
    State.FaultIs b (State.dispatch s code run) := by
  unfold State.dispatch
  split
  · exact h
  · exact runs _ _ (by exact h)

variable (cmd : Command)

theorem State.runIssue_faultIs : State.FaultIs b (State.runIssue s cmd) := by
  unfold State.runIssue
  dsimp only
  repeat' split
  all_goals simp -implicitDefEqProofs [h, State.FaultIs]

theorem State.runLookup_faultIs : State.FaultIs b (State.runLookup s cmd) := by
  unfold State.runLookup
  repeat' split
  all_goals simp -implicitDefEqProofs [h, State.FaultIs, State.readEntry]

theorem State.runDraw_faultIs : State.FaultIs b (State.runDraw s cmd) := by
  unfold State.runDraw
  repeat' split
  all_goals simp -implicitDefEqProofs [h, State.FaultIs, State.readEntry]

theorem State.runTopup_faultIs : State.FaultIs b (State.runTopup s cmd) := by
  unfold State.runTopup
  repeat' split
  all_goals simp -implicitDefEqProofs [h, State.FaultIs, State.readEntry]

theorem State.runMove_faultIs : State.FaultIs b (State.runMove s cmd) := by
  unfold State.runMove
  repeat' split
  all_goals simp -implicitDefEqProofs [h, State.FaultIs, State.readEntry]

theorem State.runRevoke_faultIs : State.FaultIs b (State.runRevoke s cmd) := by
  unfold State.runRevoke
  split <;> simp -implicitDefEqProofs [h, State.FaultIs, State.readEntry]

theorem State.runConfigureClass_faultIs : State.FaultIs b (State.runConfigureClass s cmd) := by
  unfold State.runConfigureClass
  dsimp only
  repeat' split
  all_goals simp -implicitDefEqProofs [h, State.FaultIs]

theorem State.runFormat_faultIs (undone : FrameBits) : State.FaultIs b (State.runFormat undone s cmd) := by
  unfold State.runFormat State.enterFormatting
  dsimp only
  rw [State.abandon_eq]
  split <;> exact h

end Dispatches

end Continuations

end Sys2Proof.Machine
end

section
/-! FAULT_EVENT (R135, R136, R137) over every step: set by a failure on a system frame, cleared by INFO, a reset or a RESTART. -/

namespace Sys2Proof.Machine

/-- With `c` taken in `s` a STRIKE on a system frame fails, or the retry of a foreground ERASE of one (R113, R135, R136). -/
def State.systemFails (s : State) (c : Instr) : Prop :=
  (∃ (stuck : FrameBits) (f : Frame) (claimant : Claimant) (what : Strike),
      c = .strikeComplete stuck ∧ s.ctrl.op = some (.strike f claimant what) ∧ f.val < 3 ∧
        Strike.verifies what (Memory.image (Memory.strike s.array f (Strike.intended what) stuck) f) = false) ∨
    ∃ (e : Erase) (u : State), State.attemptFails s .foreground e c u ∧ e.attempt = .retry ∧ e.frame.val < 3

/-- A failure depends on the controller and the array, not on the commands that wait. -/
theorem State.systemFails.of_pending {s : State} {c : Instr} (fails : State.systemFails s c) (pending : List Instr) :
    State.systemFails { s with pending := pending } c := by
  obtain strike | ⟨e, u, ⟨op, ⟨stage, rfl, rfl, struck⟩ | ⟨stage, elapsed, stuck, rfl, rfl, standing⟩⟩, retry⟩ := fails
  · exact .inl strike
  · exact .inr ⟨e, _, ⟨op, .inl ⟨stage, rfl, rfl, struck⟩⟩, retry⟩
  · exact .inr ⟨e, _, ⟨op, .inr ⟨stage, elapsed, stuck, rfl, rfl, standing⟩⟩, retry⟩

/-! ### A failure sets FAULT_EVENT -/

theorem State.systemFailure_sets {s : State} (going : s.intake.restartPending = false) {f : Frame} (system : f.val < 3) :
    State.FaultIs true (State.systemFailure s f false) := by
  rw [State.systemFailure, if_pos (by simpa [systemFrame] using system)]
  exact ⟨rfl, fun _ => going⟩

theorem exec_faultIs_of_fails {c : Instr} {s t : State} (fails : State.systemFails s c)
    (going : s.intake.restartPending = false) (h : exec c s = .next t) : State.FaultIs true t := by
  obtain ⟨stuck, f, claimant, what, rfl, ho, system, failed⟩ | ⟨e, u, fails, retry, system⟩ := fails
  · cases h
    have sets := State.systemFailure_sets
      (s := State.setArray (State.clearOp s) (Memory.strike s.array f (Strike.intended what) stuck)) going system
    simp only [State.strikeComplete, ho, failed]
    cases claimant with
    | foreground => exact State.reportStrike_faultIs sets f false
    | background => exact State.backgroundMarked_faultIs sets false
  · obtain ⟨run, same⟩ := State.exec_of_attemptFails fails
    have goingU : u.intake.restartPending = false := by rw [same]; exact going
    cases run.symm.trans h
    simp only [State.attemptFailed, retry, State.eraseFailed]
    exact State.reportErase_faultIs (State.systemFailure_sets (s := State.clearOp u) goingU system) _ _

/-! ### Nothing else sets it, and what clears it -/

section Steps

variable {s : State} {b : Bool} (h : State.FaultIs b s)
include h

theorem State.strikeComplete_faultIs {stuck : FrameBits} (fine : ¬ State.systemFails s (.strikeComplete stuck)) :
    State.FaultIs b (State.strikeComplete s stuck) := by
  unfold State.strikeComplete
  split
  · next f claimant what ho =>
    have kept := State.systemFailure_faultIs (f := f)
      (s := State.setArray (State.clearOp s) (Memory.strike s.array f (Strike.intended what) stuck)) h fun system => by
        by_contra failed
        exact fine (.inl ⟨stuck, f, claimant, what, rfl, ho, system, by simpa using failed⟩)
    cases claimant with
    | foreground => exact State.reportStrike_faultIs kept f _
    | background => exact State.backgroundMarked_faultIs kept _
  · exact h

theorem State.markerRetirement_faultIs {elapsed : Nat} {stuck : FrameBits}
    (fine : ¬ State.systemFails s (.markerRetirement elapsed stuck)) :
    State.FaultIs b (State.markerRetirement s elapsed stuck) := by
  unfold State.markerRetirement
  split
  · next claimant e since ho =>
    split
    · next stage =>
      dsimp only
      split
      · exact h
      · next standing =>
        refine State.attemptFailed_faultIs (by exact h) fun foreground retry => Nat.not_lt.mp fun system => ?_
        subst foreground
        exact fine (.inr ⟨e, _, State.attemptFails_markerRetirement ho stage elapsed stuck standing, retry, system⟩)
    · exact h
  · exact h

theorem State.blankVerify_faultIs (fine : ¬ State.systemFails s .blankVerify) :
    State.FaultIs b (State.blankVerify s) := by
  unfold State.blankVerify
  split
  · next claimant e since ho =>
    split
    · next stage =>
      split
      · exact State.eraseVerified_faultIs h _ _
      · next struck =>
        refine State.attemptFailed_faultIs h fun foreground retry => Nat.not_lt.mp fun system => ?_
        subst foreground
        exact fine (.inr ⟨e, _, State.attemptFails_blankVerify ho stage (by simpa using struck), retry, system⟩)
    · exact h
  · exact h

/-- A RESTART at most clears FAULT_EVENT (R178, R179). -/
theorem State.restart_faultIs (clear : b = false) (undone : FrameBits) :
    State.FaultIs b (State.restart s undone).1 := by
  subst clear
  unfold State.restart
  split
  · exact h
  · dsimp only
    unfold State.takeRestart
    dsimp only
    split
    · exact ⟨rfl, nofun⟩
    · rw [State.abandon_eq]
      have unset : ∀ (i : Intake) (m : Memory) (c : Controller),
          State.FaultIs false { s with intake := i, array := m, ctrl := c } := fun _ _ _ => ⟨h.1, nofun⟩
      unfold State.serveIfFree
      split
      · exact State.serveWaiting_faultIs (unset _ _ _)
      · exact unset _ _ _

theorem State.immediate_faultIs (code : Byte) {act : Byte → State × List Byte}
    (acts : ∀ captured, State.FaultIs b (act captured).1) : State.FaultIs b (State.immediate s code act) := by
  unfold State.immediate
  split
  · exact acts _
  · exact h

/-! ### The link port and the resets -/

theorem State.chipSelectFall_faultIs : State.FaultIs b (State.chipSelectFall s) := by
  unfold State.chipSelectFall
  repeat' split
  all_goals exact h

theorem State.submission_faultIs (code tag : Byte) (args : List Byte) (crc : Word) :
    State.FaultIs b (State.submission s code tag args crc) := by
  unfold State.submission
  split
  · split
    · dsimp only
      split <;> exact h
    · exact h
  · exact h

theorem State.submissionTruncated_faultIs (bytes : List Byte) :
    State.FaultIs b (State.submissionTruncated s bytes) := by
  unfold State.submissionTruncated
  repeat' split
  all_goals exact h

theorem State.collect_faultIs : State.FaultIs b (State.collect s) := by
  unfold State.collect
  repeat' split
  all_goals exact h

theorem State.recordShiftedOut_faultIs : State.FaultIs b (State.recordShiftedOut s) := by
  unfold State.recordShiftedOut
  split <;> exact h

theorem State.changeHold_faultIs (cls : Byte) (hold : Bool) : State.FaultIs b (State.changeHold s cls hold).1 := by
  unfold State.changeHold
  repeat' split
  all_goals exact h

theorem State.cancel_faultIs (tag : Byte) : State.FaultIs b (State.cancel s tag).1 := by
  unfold State.cancel
  dsimp only
  split <;> exact h

theorem State.resetnRelease_faultIs : State.FaultIs b (State.resetnRelease s) := by
  unfold State.resetnRelease
  split <;> exact h

theorem State.resetnAssertion_faultIs (clear : b = false) (undone : FrameBits) :
    State.FaultIs b (State.resetnAssertion s undone) := by
  unfold State.resetnAssertion
  split
  · exact ⟨clear.symm, fun _ => rfl⟩
  · exact h

theorem State.powerLoss_faultIs (clear : b = false) (undone : FrameBits) :
    State.FaultIs b (State.powerLoss s undone) := by
  unfold State.powerLoss
  split
  · exact ⟨clear.symm, fun _ => rfl⟩
  · exact h

end Steps

/-! ### Every step -/

/-- The commands and events that clear FAULT_EVENT: INFO, the resets and RESTART (R137). -/
def clearsFault : Instr → Bool
  | .info => true
  | .powerOn _ => true
  | .resetnAssertion _ => true
  | .powerLoss _ => true
  | .restart _ => true
  | _ => false

theorem clearsFault_iff {c : Instr} :
    clearsFault c = true ↔
      c = .info ∨
        ∃ cut, c = .powerOn cut ∨ c = .resetnAssertion cut ∨ c = .powerLoss cut ∨ c = .restart cut := by
  cases c <;> simp [clearsFault]

/-- A step that is no failure on a system frame does not set FAULT_EVENT, and where it is none of its causes does not clear it. -/
theorem exec_faultIs {c : Instr} {s t : State} {b : Bool} (h : State.FaultIs b s) (fine : ¬ State.systemFails s c)
    (kept : clearsFault c = true → b = false) (run : exec c s = .next t) : State.FaultIs b t := by
  cases c with
  | powerOn cut => cases run; exact ⟨(kept rfl).symm, fun _ => rfl⟩
  | resetnAssertion cut => cases run; exact State.resetnAssertion_faultIs h (kept rfl) cut
  | resetnRelease => cases run; exact State.resetnRelease_faultIs h
  | chipSelectFall => cases run; exact State.chipSelectFall_faultIs h
  | submission code tag args crc => cases run; exact State.submission_faultIs h code tag args crc
  | submissionTruncated bytes => cases run; exact State.submissionTruncated_faultIs h bytes
  | status => cases run; exact State.immediate_faultIs h _ fun _ => h
  | collect => cases run; exact State.collect_faultIs h
  | recordShiftedOut => cases run; exact State.recordShiftedOut_faultIs h
  | info => cases run; exact State.immediate_faultIs h _ fun _ => ⟨(kept rfl).symm, h.2⟩
  | setEpoch value => cases run; exact State.immediate_faultIs h _ fun _ => h
  | holdClass cls => cases run; exact State.immediate_faultIs h _ fun _ => State.changeHold_faultIs h cls true
  | releaseClass cls => cases run; exact State.immediate_faultIs h _ fun _ => State.changeHold_faultIs h cls false
  | cancel tag => cases run; exact State.immediate_faultIs h _ fun _ => State.cancel_faultIs h tag
  | restart cut => cases run; exact State.immediate_faultIs h _ fun _ => State.restart_faultIs h (kept rfl) cut
  | unknownImmediateCommand code =>
    cases run
    split
    · exact h
    · exact State.immediate_faultIs h _ fun _ => h
  | issue => cases run; exact State.dispatch_faultIs h (fun _ cmd h => State.runIssue_faultIs h cmd) _
  | lookup => cases run; exact State.dispatch_faultIs h (fun _ cmd h => State.runLookup_faultIs h cmd) _
  | draw => cases run; exact State.dispatch_faultIs h (fun _ cmd h => State.runDraw_faultIs h cmd) _
  | topup => cases run; exact State.dispatch_faultIs h (fun _ cmd h => State.runTopup_faultIs h cmd) _
  | move => cases run; exact State.dispatch_faultIs h (fun _ cmd h => State.runMove_faultIs h cmd) _
  | revoke => cases run; exact State.dispatch_faultIs h (fun _ cmd h => State.runRevoke_faultIs h cmd) _
  | list => cases run; exact State.dispatch_faultIs h (fun _ cmd h => State.post_faultIs h cmd _) _
  | configureClass => cases run; exact State.dispatch_faultIs h (fun _ cmd h => State.runConfigureClass_faultIs h cmd) _
  | purgeOrphans => cases run; exact State.dispatch_faultIs h (fun _ cmd h => State.purgeNext_faultIs h cmd _ _ _) _
  | format cut => cases run; exact State.dispatch_faultIs h (fun _ cmd h => State.runFormat_faultIs h cmd cut) _
  | readComplete => cases run; exact State.readComplete_faultIs h
  | strikeComplete stuck => cases run; exact State.strikeComplete_faultIs h fine
  | markerRetirement elapsed stuck => cases run; exact State.markerRetirement_faultIs h fine
  | bodyErase elapsed stuck => cases run; exact State.stageComplete_faultIs h _ _ elapsed stuck
  | markerErase elapsed stuck => cases run; exact State.stageComplete_faultIs h _ _ elapsed stuck
  | systemFrameErase elapsed stuck => cases run; exact State.stageComplete_faultIs h _ _ elapsed stuck
  | blankVerify => cases run; exact State.blankVerify_faultIs h fine
  | quantum => cases run; exact State.quantum_faultIs h
  | suspension elapsed undone => cases run; exact State.suspension_faultIs h elapsed undone
  | backgroundStart => cases run; exact State.backgroundStart_faultIs h
  | backgroundResume => cases run; exact State.backgroundResume_faultIs h
  | transactionEnd => cases run; exact h
  | powerLoss cut => cases run; exact State.powerLoss_faultIs h (kept rfl) cut

/-- The same of a step: a failure is of the command at the front of the queue. -/
theorem step_faultIs {s t : State} {b : Bool} (h : State.FaultIs b s) (run : step s = .next t)
    (fine : ∀ c, s.pending.head? = some c → ¬ State.systemFails s c)
    (kept : ∀ c, s.pending.head? = some c → clearsFault c = true → b = false) : State.FaultIs b t := by
  unfold step at run
  split at run
  · cases run
    exact State.tick_faultIs h
  · next c rest queue =>
    have front : s.pending.head? = some c := by rw [queue]; rfl
    exact exec_faultIs (s := { s with pending := rest }) h (fun fails => fine c front (fails.of_pending s.pending))
      (kept c front) run

/-- Settles O60: a failure on a system frame sets FAULT_EVENT, nothing else does, and only its causes clear it. -/
theorem faultEventSetAndClearedByItsCauses : Obligations.FaultEventSetAndClearedByItsCauses := by
  intro s t run systemFailure
  have fails_iff : systemFailure ↔ ∃ c, s.pending.head? = some c ∧ State.systemFails s c := by
    constructor
    · rintro (⟨stuck, f, claimant, what, front, failure⟩ | ⟨c, e, u, front, failure⟩)
      · exact ⟨_, front, .inl ⟨stuck, f, claimant, what, rfl, failure⟩⟩
      · exact ⟨c, front, .inr ⟨e, u, failure⟩⟩
    · rintro ⟨c, front, ⟨stuck, f, claimant, what, rfl, failure⟩ | ⟨e, u, failure⟩⟩
      · exact .inl ⟨stuck, f, claimant, what, front, failure⟩
      · exact .inr ⟨c, e, u, front, failure⟩
  have fine (none : ¬ systemFailure) : ∀ c, s.pending.head? = some c → ¬ State.systemFails s c :=
    fun c front fails => none (fails_iff.mpr ⟨c, front, fails⟩)
  have sets (failure : systemFailure) (going : s.intake.restartPending = false) : t.link.faultEvent = true := by
    obtain ⟨c, front, fails⟩ := fails_iff.mp failure
    obtain ⟨rest, queue⟩ := List.head?_eq_some_iff.mp front
    simp only [step, queue] at run
    exact (exec_faultIs_of_fails (fails.of_pending rest) going run).1
  refine ⟨fun clear set => ?_, sets, fun set clear => ?_⟩
  · by_contra none
    obtain ⟨still, -⟩ := step_faultIs (b := false) ⟨clear, nofun⟩ run (fine none) fun _ _ _ => rfl
    simp [set] at still
  · by_contra uncaused
    simp only [not_or, Bool.not_eq_true] at uncaused
    obtain ⟨going, notInfo, noReset⟩ := uncaused
    have none : ¬ systemFailure := fun failure => by simp [sets failure going] at clear
    obtain ⟨still, -⟩ := step_faultIs (b := true) ⟨set, fun _ => going⟩ run (fine none) fun c front clears => by
      obtain rfl | ⟨cut, reset⟩ := clearsFault_iff.mp clears
      · exact absurd front notInfo
      · exact absurd ⟨cut, by simpa [front] using reset⟩ noReset
    simp [clear] at still

end Sys2Proof.Machine
end

section
/-! Where the frames stand (R123): the places of a state as a list up to its order, and how the pools, the index and the hold
move a frame from one place to another. -/

namespace Sys2Proof.Machine

/-! ### Counting -/

/-- How often a frame stands in the places of R123. -/
theorem State.count_places (s : State) (g : Frame) :
    (State.places s).count g =
      s.pools.free.count g + s.pools.reclaim.count g + s.pools.quarantine.count g + s.pools.bad.count g +
        (s.index.map fun e => e.frame).count g + s.engine.held.toList.count g + (State.scannedFrames s).count g := by
  simp only [State.places, List.count_append]

/-- Each of the pools stands in the places, so it holds no frame twice where they hold none twice. -/
theorem State.pools_nodup {s : State} (h : (State.places s).Nodup) :
    s.pools.reclaim.Nodup ∧ s.pools.quarantine.Nodup ∧ s.pools.bad.Nodup := by
  have once := List.nodup_iff_count_le_one.mp h
  simp only [State.count_places] at once
  refine ⟨?_, ?_, ?_⟩ <;> refine List.nodup_iff_count_le_one.mpr fun g => ?_ <;> have := once g <;> omega

theorem State.bad_subset_places (s : State) : s.pools.bad ⊆ State.places s := by
  intro f hf
  simp [State.places, hf]

theorem perm_insertFrame {f : Frame} {frames : List Frame} (h : f ∉ frames) :
    (insertFrame f frames).Perm (f :: frames) := by
  induction frames with
  | nil => simp [insertFrame]
  | cons g rest ih =>
    obtain ⟨ne, absent⟩ := not_or.mp (mt List.mem_cons.mpr h)
    unfold insertFrame
    split
    · exact List.Perm.refl _
    · exact ((ih absent).cons g).trans (List.Perm.swap f g rest)

theorem perm_removeFrame {f : Frame} {frames : List Frame} (h : f ∈ frames) (once : frames.Nodup) :
    (f :: removeFrame f frames).Perm frames := by
  have : removeFrame f frames = frames.erase f := by
    rw [once.erase_eq_filter]
    exact List.filter_congr fun g _ => by simp [bne, BEq.beq]
  rw [this]
  exact (List.perm_cons_erase h).symm

theorem perm_insertEntry (e : Entry) (index : List Entry) : (insertEntry e index).Perm (e :: index) := by
  induction index with
  | nil => exact List.Perm.refl _
  | cons d rest ih =>
    unfold insertEntry
    split
    · exact List.Perm.refl _
    · exact (ih.cons d).trans (List.Perm.swap e d rest)

/-- Marking an entry corrupt leaves its frame. -/
theorem map_frame_markEntry (key : Word) (gen : Gen) (index : List Entry) :
    ((markEntry key gen index).map fun e => e.frame) = index.map fun e => e.frame := by
  simp only [markEntry, List.map_map]
  refine List.map_congr_left fun e _ => ?_
  by_cases h : e.key = key <;> simp [h]

/-- In an index in order one entry holds the key of a grant, and the others another one (R25). -/
theorem exists_split_of_bound {index : List Entry} (ordered : index.Pairwise fun d e => d.key.toNat < e.key.toNat)
    {key : Word} {f : Frame} (bound : ∃ e ∈ index, e.key = key ∧ e.frame = f) :
    ∃ left e right, index = left ++ e :: right ∧ e.key = key ∧ e.frame = f ∧ ∀ d ∈ left ++ right, d.key ≠ key := by
  obtain ⟨e, he, rfl, rfl⟩ := bound
  obtain ⟨left, right, rfl⟩ := List.append_of_mem he
  refine ⟨left, e, right, rfl, rfl, rfl, fun d hd same => ?_⟩
  obtain ⟨-, after, before⟩ := List.pairwise_append.mp ordered
  rcases List.mem_append.mp hd with hd | hd
  · exact absurd (before d hd e List.mem_cons_self) (by simp [same])
  · exact absurd ((List.pairwise_cons.mp after).1 d hd) (by simp [same])

section Bound

variable {index : List Entry} (ordered : index.Pairwise fun d e => d.key.toNat < e.key.toNat) {key : Word} {f : Frame}
  (bound : ∃ e ∈ index, e.key = key ∧ e.frame = f)
include ordered bound

/-- The frame of an entry removed leaves the index (R31). -/
theorem perm_removeEntry : (f :: (removeEntry key index).map fun e => e.frame).Perm (index.map fun e => e.frame) := by
  obtain ⟨left, e, right, rfl, rfl, rfl, others⟩ := exists_split_of_bound ordered bound
  have rest : removeEntry e.key (left ++ e :: right) = left ++ right := by
    have kept : ∀ d ∈ left ++ right, decide (d.key ≠ e.key) = true := by simpa using others
    have := List.filter_eq_self.mpr kept
    simpa [removeEntry] using this
  rw [rest]
  simpa using List.perm_middle.symm

/-- The frame of an entry repointed leaves the index, and the new frame takes its place (R30). -/
theorem perm_repointEntry (new : Frame) (gen : Gen) :
    (f :: (repointEntry key new gen index).map fun e => e.frame).Perm (new :: index.map fun e => e.frame) := by
  obtain ⟨left, e, right, rfl, rfl, rfl, others⟩ := exists_split_of_bound ordered bound
  have same : ∀ part : List Entry, (∀ d ∈ part, d.key ≠ e.key) →
      ((repointEntry e.key new gen part).map fun e => e.frame) = part.map fun e => e.frame := by
    intro part others
    simp only [repointEntry, List.map_map]
    exact List.map_congr_left fun d hd => by simp [others d hd]
  have rest : ((repointEntry e.key new gen (left ++ e :: right)).map fun e => e.frame) =
      left.map (fun e => e.frame) ++ new :: right.map fun e => e.frame := by
    rw [← same left fun d hd => others d (List.mem_append_left _ hd),
      ← same right fun d hd => others d (List.mem_append_right _ hd)]
    simp [repointEntry]
  rw [rest]
  refine List.perm_iff_count.mpr fun g => ?_
  simp only [List.count_cons, List.count_append, List.map_append, List.map_cons]
  omega

end Bound

/-! ### A frame is marked -/

@[simp] theorem FramePools.afterMark_free (p : FramePools) (f : Frame) (verified : Bool) :
    (FramePools.afterMark p f verified).free = p.free := by cases verified <;> rfl

@[simp] theorem FramePools.afterMark_reclaim (p : FramePools) (f : Frame) (verified : Bool) :
    (FramePools.afterMark p f verified).reclaim = p.reclaim := by cases verified <;> rfl

/-- A frame neither bad nor in quarantine is one of them after its mark strike (R134, R135). -/
theorem FramePools.count_afterMark {p : FramePools} {f : Frame} (apart : f ∉ p.bad ∧ f ∉ p.quarantine) (verified : Bool)
    (g : Frame) :
    (FramePools.afterMark p f verified).quarantine.count g + (FramePools.afterMark p f verified).bad.count g =
      p.quarantine.count g + p.bad.count g + [f].count g := by
  obtain ⟨notBad, notQuarantined⟩ := apart
  cases verified with
  | true =>
    have := (perm_insertFrame notBad).count_eq g
    simp only [FramePools.afterMark, if_true, List.count_cons, List.count_nil] at this ⊢
    omega
  | false =>
    have := (perm_insertFrame notQuarantined).count_eq g
    simp only [FramePools.afterMark, Bool.false_eq_true, if_false, List.count_cons, List.count_nil] at this ⊢
    omega

/-- A frame with a place elsewhere is neither bad nor in quarantine (R123). -/
theorem State.apart_of_nodup {s : State} (nodup : (State.places s).Nodup) {f : Frame}
    (elsewhere : f ∈ s.pools.free ++ s.pools.reclaim ++ s.engine.held.toList ++ State.scannedFrames s) :
    f ∉ s.pools.bad ∧ f ∉ s.pools.quarantine := by
  have once := List.nodup_iff_count_le_one.mp nodup f
  have counted := List.count_pos_iff.mpr elsewhere
  rw [State.count_places] at once
  simp only [List.count_append] at counted
  constructor <;> refine List.count_eq_zero.mp ?_ <;> omega

end Sys2Proof.Machine
end

section
/-! Every frame stays in its one place (R123) while the command in progress goes on, outside a mount. -/

namespace Sys2Proof.Machine

/-! ### What the places rest on outside a mount -/

/-- Background reclaim works on the frame: it is under erase or suspended (R124, R128). -/
def Controller.Erases (c : Controller) (f : Frame) : Prop :=
  (∃ e since, c.op = some (.erase .background e since) ∧ e.frame = f) ∨ ∃ e ∈ c.suspended, e.frame = f

/-- How often a frame stands in the places of R123 other than the frames a mount scans. -/
def State.pooled (s : State) (g : Frame) : Nat :=
  s.pools.free.count g + s.pools.reclaim.count g + s.pools.quarantine.count g + s.pools.bad.count g +
    (s.index.map fun e => e.frame).count g + s.engine.held.toList.count g

theorem State.count_places_eq_pooled (s : State) (g : Frame) :
    (State.places s).count g = State.pooled s g + (State.scannedFrames s).count g := State.count_places s g

/-- No mount is in progress, the foreground does not work on the array, every frame has one place (R123), and background reclaim
works on frames of the reclaim queue (R128). -/
structure State.MayGoOn (s : State) : Prop where
  work : s.mount.work = none
  calm : Controller.foregroundBusy s.ctrl = false
  nodup : (State.places s).Nodup
  grant : ∀ f ∈ State.places s, 3 ≤ f.val
  all : s.part = .ready → State.allPlaced s
  erases : ∀ f, Controller.Erases s.ctrl f → f ∈ s.pools.reclaim

theorem State.erases_of_placesOk {s : State} (h : State.placesOk s) {f : Frame} (erases : Controller.Erases s.ctrl f) :
    f ∈ s.pools.reclaim := by
  obtain ⟨-, -, -, -, progressing, suspended, -⟩ := h
  obtain ⟨e, since, ho, rfl⟩ | ⟨e, he, rfl⟩ := erases
  · exact progressing _ e since ho rfl
  · exact suspended e he

/-- A command in progress at a step that holds no frame holds none, and neither does the engine without a command (R64). -/
theorem State.held_none_of_placesOk {s : State} (h : State.placesOk s)
    (holds : ∀ j ∈ s.engine.job, EngineStep.holds j.step = false) : s.engine.held = none := by
  obtain ⟨-, -, -, held, -⟩ := h
  refine Option.eq_none_iff_forall_not_mem.mpr fun f hf => ?_
  obtain ⟨j, hj, holding⟩ := held f hf
  simp [holds j hj] at holding

/-- The clearing for a RESTART leaves no frame a place (R179). -/
theorem State.clearForRestart_placesOk (s : State) : State.placesOk (State.clearForRestart s) := by
  rw [State.clearForRestart_eq]
  simp [State.placesOk, State.places, State.scannedFrames, State.reset, MountWork.framesOk]

namespace State.MayGoOn

variable {s t : State} (h : State.MayGoOn s)
include h

/-- Frames moved from one place to another leave each of them one place. -/
theorem rearranged (ctrl : t.ctrl = s.ctrl) (work : t.mount.work = s.mount.work) (part : t.part = s.part)
    (erases : ∀ f, Controller.Erases s.ctrl f → f ∈ t.pools.reclaim)
    (same : ∀ g, State.pooled t g = State.pooled s g) : State.MayGoOn t := by
  have perm : (State.places t).Perm (State.places s) := by
    refine List.perm_iff_count.mpr fun g => ?_
    have scanned : State.scannedFrames t = State.scannedFrames s := by simp [State.scannedFrames, work]
    rw [State.count_places_eq_pooled, State.count_places_eq_pooled, same, scanned]
  exact
    { work := work.trans h.work
      calm := ctrl ▸ h.calm
      nodup := perm.nodup_iff.mpr h.nodup
      grant := fun f hf => h.grant f (perm.mem_iff.mp hf)
      all := fun ready g hg => perm.mem_iff.mpr (h.all (part ▸ ready) g hg)
      erases := ctrl ▸ erases }

/-- With no command in progress nothing more is asked. -/
theorem placesOk_of_no_job (job : s.engine.job = none) (held : s.engine.held = none) : State.placesOk s :=
  ⟨h.nodup, h.grant, h.all, by simp [held],
    fun _ e since ho background => h.erases _ (.inl ⟨e, since, background ▸ ho, rfl⟩),
    fun e he => h.erases _ (.inr ⟨e, he, rfl⟩), by simp [job], by simp [h.work]⟩

theorem post_placesOk (held : s.engine.held = none) (cmd : Command) (r : Result) :
    State.placesOk (State.post s cmd r) := by
  unfold State.post
  split
  · exact State.clearForRestart_placesOk s
  · exact placesOk_of_no_job (s := { s with engine := _, intake := _ }) ⟨h.work, h.calm, h.nodup, h.grant, h.all, h.erases⟩
      rfl held

/-- The command goes on to a step, the controller as it then stands. -/
theorem step_placesOk {step : EngineStep} (held : s.engine.held = none ∨ EngineStep.holds step = true)
    (unused : EngineStep.formats step = false ∨
      s.pools.free = [] ∧ s.pools.reclaim = [] ∧ s.pools.quarantine = [])
    {cmd : Command} {ctrl : Controller} (erases : ∀ f, Controller.Erases ctrl f → f ∈ s.pools.reclaim)
    (rests : EngineStep.framesOk { State.goStep s cmd step with ctrl := ctrl } step) :
    State.placesOk { State.goStep s cmd step with ctrl := ctrl } := by
  refine ⟨h.nodup, h.grant, h.all, fun f hf => ⟨_, rfl, ?_⟩,
    fun _ e since ho background => erases _ (.inl ⟨e, since, background ▸ ho, rfl⟩),
    fun e he => erases _ (.inr ⟨e, he, rfl⟩), fun j hj => ?_, fun w hw => ?_⟩
  · refine held.resolve_left fun none => ?_
    rw [State.goStep_engine, none] at hf
    cases hf
  · cases hj
    exact ⟨rests, fun formats _ => unused.resolve_left (by simp [formats])⟩
  · exact absurd ((show s.mount.work = some w from hw).symm.trans h.work) nofun

end State.MayGoOn

/-! ### Claims -/

/-- A claim begins no work of background reclaim. -/
theorem Controller.erases_of_claim {c : Controller} {k : Claim} {f : Frame}
    (h : Controller.Erases (Controller.claim c k) f) : Controller.Erases c f := by
  cases ho : c.op with
  | none =>
    rw [Controller.claim_of_idle ho] at h
    refine h.imp_left ?_
    rintro ⟨e, since, he, -⟩
    cases k <;> simp [Claim.operation] at he
  | some op => rwa [Controller.claim_of_busy ho] at h

/-- A claim made while the foreground does not work on the array is of the frame it names (R114). -/
theorem Controller.foregroundFrame_claim_of_calm {c : Controller} (calm : Controller.foregroundBusy c = false) (k : Claim) :
    Controller.foregroundFrame (Controller.claim c k) = Claim.frame k := by
  cases ho : c.op with
  | none => exact Controller.foregroundFrame_claim ho k
  | some op =>
    have background : Op.isBackground op = true := by simpa [Controller.foregroundBusy, ho] using calm
    rw [Controller.claim_of_busy ho, Controller.foregroundFrame_of_background (by exact ho) background]
    rfl

/-- A background operation is an ERASE or a mark strike. -/
theorem Controller.backgroundBusy_iff {c : Controller} :
    Controller.backgroundBusy c = true ↔
      (∃ e since, c.op = some (.erase .background e since)) ∨ ∃ f what, c.op = some (.strike f .background what) := by
  cases ho : c.op with
  | none => simp [Controller.backgroundBusy, ho]
  | some op => cases op <;> simp [Controller.backgroundBusy, ho, Op.isBackground]

/-- Nothing of background reclaim is in existence: a demand erase takes the reclaim queue's head (R131). -/
abbrev Controller.Unreclaiming (c : Controller) : Prop := c.suspended = none ∧ Controller.backgroundBusy c = false

theorem Controller.Unreclaiming.not_erases {c : Controller} (h : Controller.Unreclaiming c) (f : Frame) :
    ¬ Controller.Erases c f := by
  obtain ⟨unsuspended, quiet⟩ := h
  rintro (⟨e, since, ho, -⟩ | ⟨e, he, -⟩)
  · simp [Controller.backgroundBusy, ho, Op.isBackground] at quiet
  · simp [unsuspended] at he

theorem Controller.Unreclaiming.idle {c : Controller} (h : Controller.Unreclaiming c)
    (calm : Controller.foregroundBusy c = false) : c.op = none := by
  obtain ⟨-, quiet⟩ := h
  cases ho : c.op with
  | none => rfl
  | some op => simp_all [Controller.backgroundBusy, Controller.foregroundBusy]

/-- A claim leaves it so. -/
theorem Controller.Unreclaiming.claim {c : Controller} (h : Controller.Unreclaiming c)
    (calm : Controller.foregroundBusy c = false) (k : Claim) : Controller.Unreclaiming (Controller.claim c k) := by
  rw [Controller.claim_of_idle (h.idle calm)]
  refine ⟨h.1, ?_⟩
  cases k <;> rfl

section Claims

variable {s : State} (h : State.MayGoOn s)
include h

theorem State.MayGoOn.claimStep_placesOk {step : EngineStep}
    (held : s.engine.held = none ∨ EngineStep.holds step = true)
    (unused : EngineStep.formats step = false ∨
      s.pools.free = [] ∧ s.pools.reclaim = [] ∧ s.pools.quarantine = [])
    (cmd : Command) (k : Claim) (rests : EngineStep.framesOk (State.claimStep s cmd step k) step) :
    State.placesOk (State.claimStep s cmd step k) :=
  h.step_placesOk held unused (fun f erases => h.erases f (Controller.erases_of_claim erases)) rests

/-- What a step rests on for the frame of its claim. -/
theorem State.MayGoOn.forall_frame {k : Claim} {f : Frame} (frame : Claim.frame k = some f) {P : Frame → Prop} (hf : P f)
    (cmd : Command) (step : EngineStep) :
    ∀ g ∈ Controller.foregroundFrame (State.claimStep s cmd step k).ctrl, P g := by
  rw [State.claimStep_ctrl, Controller.foregroundFrame_claim_of_calm h.calm, frame]
  rintro g ⟨rfl⟩
  exact hf

end Claims

/-! ### Takes and the writing of a new record -/

section Writing

variable {s : State} (h : State.MayGoOn s) (cmd : Command) {w : Writing} (old : Writing.oldBound w s)
include h old

/-- The steps that write a new record into the frame held (R66). -/
theorem State.claimHeld_placesOk {f : Frame} (held : s.engine.held = some f) {step : EngineStep}
    (writes : EngineStep.Writes w step) (what : Strike) :
    State.placesOk (State.claimStep s cmd step (.strike f what)) := by
  have rests := h.forall_frame (k := .strike f what) rfl (P := fun g => s.engine.held = some g) held cmd step
  cases writes <;> exact h.claimStep_placesOk (.inr rfl) (.inl rfl) cmd _ ⟨old, rests⟩

theorem State.newFrameFailed_placesOk {f : Frame} (held : s.engine.held = some f) :
    State.placesOk (State.newFrameFailed s cmd w f) :=
  h.claimStep_placesOk (.inr rfl) (.inl rfl) cmd _ ⟨old, held⟩

variable (held : s.engine.held = none)
include held

theorem State.demandNext_placesOk (demand : Controller.Unreclaiming s.ctrl) :
    State.placesOk (State.demandNext s cmd w) := by
  unfold State.demandNext
  split
  · next f rest pool =>
    have head : f ∈ s.pools.reclaim := by simp [pool]
    exact h.claimStep_placesOk (.inl held) (.inl rfl) cmd _
      ⟨old, demand.claim h.calm _, h.forall_frame (k := .erase f) rfl head cmd _⟩
  · exact h.post_placesOk held cmd _

theorem State.demandReclaim_placesOk : State.placesOk (State.demandReclaim s cmd w) := by
  have resumed {e : Erase} (erases : Controller.Erases s.ctrl e.frame) (since : Nat) (waiting : Option Claim) :
      State.placesOk
        { State.goStep s cmd (.takeErase w) with
            ctrl := { op := some (.erase .foreground e since), suspended := none, waiting := waiting } } := by
    refine h.step_placesOk (.inl held) (.inl rfl) ?_ ⟨old, ⟨rfl, rfl⟩, ?_⟩
    · exact fun f erases => absurd erases (Controller.Unreclaiming.not_erases ⟨rfl, rfl⟩ f)
    · rintro f ⟨rfl⟩
      exact h.erases _ erases
  unfold State.demandReclaim
  split
  · next e suspended => exact resumed (.inr ⟨e, suspended, rfl⟩) 0 _
  · next e since unsuspended ho => simpa only [unsuspended] using resumed (.inl ⟨e, since, ho, rfl⟩) since s.ctrl.waiting
  · exact h.claimStep_placesOk (.inl held) (.inl rfl) cmd _ old
  · next unsuspended noErase noStrike =>
    refine State.demandNext_placesOk h cmd old held ⟨unsuspended, Bool.eq_false_iff.mpr fun busy => ?_⟩
    obtain ⟨e, since, ho⟩ | ⟨g, what, ho⟩ := Controller.backgroundBusy_iff.mp busy
    · exact noErase e since ho
    · exact noStrike g what ho

theorem State.take_placesOk : State.placesOk (State.take s cmd w) := by
  unfold State.take
  split
  · next f rest pool =>
    have taken : State.MayGoOn (State.setHeld (State.setPools s { s.pools with free := rest }) (some f)) := by
      refine h.rearranged rfl rfl rfl h.erases fun g => ?_
      simp [State.pooled, pool, held, List.count_cons]
      omega
    exact State.claimHeld_placesOk taken cmd old rfl .opening _
  · exact State.demandReclaim_placesOk h cmd old held

end Writing

/-! ### Frames move on -/

namespace State.MayGoOn

variable {s : State} (h : State.MayGoOn s) {f : Frame}
include h

/-- A frame of the reclaim queue that background reclaim does not work on leaves it for the hold (R131). -/
theorem reclaimedHeld (demand : Controller.Unreclaiming s.ctrl) (head : f ∈ s.pools.reclaim)
    (held : s.engine.held = none) :
    State.MayGoOn
      (State.setHeld (State.setPools s { s.pools with reclaim := removeFrame f s.pools.reclaim }) (some f)) := by
  refine h.rearranged rfl rfl rfl (fun f erases => absurd erases (demand.not_erases f)) fun g => ?_
  have removed := (perm_removeFrame head (State.pools_nodup h.nodup).1).count_eq g
  simp [State.pooled, held, List.count_cons] at removed ⊢
  omega

/-- Such a frame is marked (R131, R134, R135). -/
theorem reclaimedMarked (demand : Controller.Unreclaiming s.ctrl) (head : f ∈ s.pools.reclaim) (verified : Bool) :
    State.MayGoOn
      (State.setPools s
        (FramePools.afterMark { s.pools with reclaim := removeFrame f s.pools.reclaim } f verified)) := by
  refine h.rearranged rfl rfl rfl (fun f erases => absurd erases (demand.not_erases f)) fun g => ?_
  have removed := (perm_removeFrame head (State.pools_nodup h.nodup).1).count_eq g
  have marked := FramePools.count_afterMark (p := { s.pools with reclaim := removeFrame f s.pools.reclaim })
    (State.apart_of_nodup h.nodup (f := f) (by simp [head])) verified g
  simp [State.pooled, List.count_cons] at removed marked ⊢
  omega

/-- The frame held is marked (R67, R86, R134, R135). -/
theorem heldMarked (held : s.engine.held = some f) (verified : Bool) :
    State.MayGoOn (State.setHeld (State.setPools s (FramePools.afterMark s.pools f verified)) none) := by
  refine h.rearranged rfl rfl rfl (by simpa using h.erases) fun g => ?_
  have marked := FramePools.count_afterMark (State.apart_of_nodup h.nodup (f := f) (by simp [held])) verified g
  simp [State.pooled, held, List.count_cons] at marked ⊢
  omega

/-- The record of the frame held is LIVE: its entry holds the frame (R28). -/
theorem heldInserted (held : s.engine.held = some f) {e : Entry} (frame : e.frame = f) :
    State.MayGoOn (State.setHeld (State.setIndex s (insertEntry e s.index)) none) := by
  refine h.rearranged rfl rfl rfl h.erases fun g => ?_
  have inserted := ((perm_insertEntry e s.index).map fun e => e.frame).count_eq g
  simp [State.pooled, held, frame, List.count_cons] at inserted ⊢
  omega

/-- The frame held joins the free pool (R86). -/
theorem heldFreed (held : s.engine.held = some f) :
    State.MayGoOn (State.setHeld (State.setPools s { s.pools with free := s.pools.free ++ [f] }) none) := by
  refine h.rearranged rfl rfl rfl h.erases fun g => ?_
  simp [State.pooled, held, List.count_cons]
  omega

/-- A member of the quarantine set joins the reclaim queue (R139). -/
theorem purged (member : f ∈ s.pools.quarantine) :
    State.MayGoOn
      (State.setPools s
        { s.pools with quarantine := removeFrame f s.pools.quarantine, reclaim := s.pools.reclaim ++ [f] }) := by
  obtain ⟨-, once, -⟩ := State.pools_nodup h.nodup
  refine h.rearranged rfl rfl rfl (fun f erases => List.mem_append_left _ (h.erases f erases)) fun g => ?_
  have removed := (perm_removeFrame member once).count_eq g
  simp [State.pooled, List.count_cons] at removed ⊢
  omega

section Bound

variable (ordered : State.indexOk s) {key : Word} (bound : State.boundAt s key f)
include ordered bound

/-- The frame of an entry repointed to the frame held joins the reclaim queue (R30, R78). -/
theorem repointedReclaimed {new : Frame} (held : s.engine.held = some new) (gen : Gen) :
    State.MayGoOn
      (State.setHeld
        (State.setPools (State.setIndex s (repointEntry key new gen s.index))
          { s.pools with reclaim := s.pools.reclaim ++ [f] })
        none) := by
  refine h.rearranged rfl rfl rfl (fun f erases => List.mem_append_left _ (h.erases f erases)) fun g => ?_
  have repointed := (perm_repointEntry ordered bound new gen).count_eq g
  simp [State.pooled, held, List.count_cons] at repointed ⊢
  omega

/-- It is held for its fallback (R79, R86). -/
theorem repointedHeld {new : Frame} (held : s.engine.held = some new) (gen : Gen) :
    State.MayGoOn (State.setHeld (State.setIndex s (repointEntry key new gen s.index)) (some f)) := by
  refine h.rearranged rfl rfl rfl h.erases fun g => ?_
  have repointed := (perm_repointEntry ordered bound new gen).count_eq g
  simp [State.pooled, held, List.count_cons] at repointed ⊢
  omega

/-- The frame of an entry removed joins the reclaim queue (R31, R85). -/
theorem removedReclaimed :
    State.MayGoOn
      (State.setPools (State.setIndex s (removeEntry key s.index))
        { s.pools with reclaim := s.pools.reclaim ++ [f] }) := by
  refine h.rearranged rfl rfl rfl (fun f erases => List.mem_append_left _ (h.erases f erases)) fun g => ?_
  have removed := (perm_removeEntry ordered bound).count_eq g
  simp [State.pooled, List.count_cons] at removed ⊢
  omega

/-- It is held for its fallback (R86). -/
theorem removedHeld (held : s.engine.held = none) :
    State.MayGoOn (State.setHeld (State.setIndex s (removeEntry key s.index)) (some f)) := by
  refine h.rearranged rfl rfl rfl h.erases fun g => ?_
  have removed := (perm_removeEntry ordered bound).count_eq g
  simp [State.pooled, held, List.count_cons] at removed ⊢
  omega

end Bound

theorem markCorrupt (e : Entry) (img : Image) : State.MayGoOn (State.markCorrupt s e img) :=
  h.rearranged rfl rfl rfl h.erases fun g => by simp [State.pooled, State.markCorrupt, map_frame_markEntry]

theorem setStatus (k : ClassNo) (status : ClassStatus) : State.MayGoOn (State.setStatus s k status) :=
  ⟨h.work, h.calm, h.nodup, h.grant, h.all, h.erases⟩

end State.MayGoOn

/-! ### The end of a new record's strikes, and of demand reclaim's work -/

section Writing

variable {s : State} (h : State.MayGoOn s) (cmd : Command) {w : Writing} (old : Writing.oldBound w s) {f : Frame}
include h old

theorem State.newFrameReleased_placesOk (held : s.engine.held = some f) (verified : Bool) :
    State.placesOk (State.newFrameReleased s cmd w f verified) := by
  have marked := h.heldMarked held verified
  unfold State.newFrameReleased
  dsimp only
  split
  · exact State.take_placesOk (w := { w with failed := w.failed + 1 }) marked cmd old rfl
  · exact marked.post_placesOk rfl cmd _

theorem State.newFrameLive_placesOk (held : s.engine.held = some f) : State.placesOk (State.newFrameLive s cmd w f) := by
  unfold State.newFrameLive
  split
  · exact (h.heldInserted held rfl).post_placesOk rfl cmd _
  · next o relocates => exact h.claimStep_placesOk (.inr rfl) (.inl rfl) cmd _ ⟨old o relocates, held⟩

variable (held : s.engine.held = none) (demand : Controller.Unreclaiming s.ctrl) (head : f ∈ s.pools.reclaim)
include held demand head

theorem State.demandErased_placesOk (verified : Bool) : State.placesOk (State.demandErased s cmd w f verified) := by
  unfold State.demandErased
  split
  · exact State.claimHeld_placesOk (h.reclaimedHeld demand head held) cmd old rfl .opening _
  · exact h.claimStep_placesOk (.inl held) (.inl rfl) cmd _ ⟨old, demand.claim h.calm _, head⟩

theorem State.demandMarked_placesOk (verified : Bool) : State.placesOk (State.demandMarked s cmd w f verified) :=
  State.demandNext_placesOk (h.reclaimedMarked demand head verified) cmd old held demand

end Writing

/-! ### The end of a grant, and the fallback -/

section Ends

variable {s : State} (h : State.MayGoOn s) (cmd : Command) {f : Frame}

theorem State.fallback_placesOk (h : State.MayGoOn (State.setHeld s (some f))) (fallback lost : Result) :
    State.placesOk (State.fallback s cmd f fallback lost) :=
  h.claimStep_placesOk (.inr rfl) (.inl rfl) cmd _
    (h.forall_frame (k := .erase f) rfl (P := fun g => some f = some g) rfl cmd (.fallbackErase fallback lost))

include h

theorem State.fallbackErased_placesOk (held : s.engine.held = some f) (fallback lost : Result) (verified : Bool) :
    State.placesOk (State.fallbackErased s cmd fallback lost f verified) := by
  unfold State.fallbackErased
  split
  · exact (h.heldFreed held).post_placesOk rfl cmd _
  · exact h.claimStep_placesOk (.inr rfl) (.inl rfl) cmd _ held

theorem State.fallbackMarked_placesOk (held : s.engine.held = some f) (fallback lost : Result) (verified : Bool) :
    State.placesOk (State.fallbackMarked s cmd fallback lost f verified) :=
  (h.heldMarked held verified).post_placesOk rfl cmd _

variable (ordered : State.indexOk s)
include ordered

theorem State.movedDone_placesOk {w : Writing} {o : OldGrant} (bound : State.boundAt s w.record.key o.frame) {new : Frame}
    (held : s.engine.held = some new) (verified : Bool) :
    State.placesOk (State.movedDone s cmd w o new verified) := by
  unfold State.movedDone
  dsimp only
  split
  · exact (h.repointedReclaimed ordered bound held _).post_placesOk rfl cmd _
  · exact State.fallback_placesOk cmd (h.repointedHeld ordered bound held _) _ _

variable (held : s.engine.held = none)
include held

theorem State.retiredDone_placesOk {e : Ending} (bound : State.boundAt s e.key f) (verified : Bool) :
    State.placesOk (State.retiredDone s cmd e f verified) := by
  unfold State.retiredDone
  dsimp only
  split
  · exact (h.removedReclaimed ordered bound).post_placesOk held cmd _
  · exact State.fallback_placesOk cmd (h.removedHeld ordered bound held) _ _

theorem State.retire_placesOk {e : Ending} (bound : State.boundAt s e.key f) (bits : Byte) :
    State.placesOk (State.retire s cmd e f bits) := by
  unfold State.retire
  split
  · exact State.retiredDone_placesOk h cmd ordered held bound true
  · exact h.claimStep_placesOk (.inl held) (.inl rfl) cmd _
      (h.forall_frame (k := .strike f _) rfl (P := State.boundAt s e.key) bound cmd (.retiredStrike e))

end Ends

end Sys2Proof.Machine
end

section
/-! Every frame stays in its one place (R123) over the completions reported to the command in progress. -/

namespace Sys2Proof.Machine

/-! ### READs of a grant's frame -/

/-- A sound READ through an entry gives the entry's key (R15). -/
theorem Image.grant_key_of_soundFor {img : Image} {e : Entry} (sound : Image.soundFor img e = true) :
    (Image.grant img).key = e.key := by
  simp only [Image.soundFor, Bool.and_eq_true, decide_eq_true_eq] at sound
  exact sound.1.2

/-- Marking an entry corrupt leaves every key bound to its frame. -/
theorem State.boundAt_markCorrupt {s : State} {key : Word} {f : Frame} (bound : State.boundAt s key f) (e : Entry)
    (img : Image) : State.boundAt (State.markCorrupt s e img) key f := by
  obtain ⟨d, hd, rfl, rfl⟩ := bound
  refine ⟨_, List.mem_map_of_mem hd, ?_, ?_⟩ <;> split <;> rfl

section Reads

variable {s : State} (h : State.MayGoOn s) (held : s.engine.held = none) (cmd : Command) {e : Entry} {f : Frame}
include h held

theorem State.lookupRead_placesOk (snap : Snapshot) (img : Image) :
    State.placesOk (State.lookupRead s cmd snap e f img) := by
  unfold State.lookupRead
  split
  · exact State.MayGoOn.post_placesOk (s := { s with freeUses := s.freeUses + 1 })
      ⟨h.work, h.calm, h.nodup, h.grant, h.all, h.erases⟩ held cmd _
  · exact (h.markCorrupt e img).post_placesOk held cmd _

theorem State.drawReadBack_placesOk (d : Drawing) (img : Image) :
    State.placesOk (State.drawReadBack s cmd d e img) := by
  unfold State.drawReadBack
  split
  · exact h.post_placesOk held cmd _
  · exact (h.markCorrupt e img).post_placesOk held cmd _

variable (bound : State.boundAt s e.key f)
include bound

theorem State.drawRead_placesOk (snap : Snapshot) (img : Image) :
    State.placesOk (State.drawRead s cmd snap e f img) := by
  unfold State.drawRead
  split
  · dsimp only
    split
    · split
      · exact h.post_placesOk held cmd _
      · split
        · exact h.post_placesOk held cmd _
        · split
          · exact h.post_placesOk held cmd _
          · exact h.claimStep_placesOk (.inl held) (.inl rfl) cmd _
              (h.forall_frame (k := .strike f _) rfl (P := State.boundAt s e.key) bound cmd (.drawStrikeA _ e))
    · exact h.post_placesOk held cmd _
  · exact (h.markCorrupt e img).post_placesOk held cmd _

theorem State.drawStruckA_placesOk (d : Drawing) (verified : Bool) :
    State.placesOk (State.drawStruckA s cmd d e f verified) :=
  h.claimStep_placesOk (.inl held) (.inl rfl) cmd _
    (h.forall_frame (k := .strike f _) rfl (P := State.boundAt s e.key) bound cmd (.drawStrikeB d e verified))

theorem State.topupRead_placesOk (snap : Snapshot) (img : Image) :
    State.placesOk (State.topupRead s cmd snap e f img) := by
  unfold State.topupRead
  split
  · next sound =>
    have old : State.boundAt s (Image.grant img).key f := Image.grant_key_of_soundFor sound ▸ bound
    dsimp only
    split
    · split
      · exact h.post_placesOk held cmd _
      · split
        · exact h.post_placesOk held cmd _
        · split
          · exact h.post_placesOk held cmd _
          · exact State.take_placesOk h cmd (by rintro o ⟨rfl⟩; exact old) held
    · exact h.post_placesOk held cmd _
  · exact (h.markCorrupt e img).post_placesOk held cmd _

theorem State.moveRead_placesOk (img : Image) : State.placesOk (State.moveRead s cmd e f img) := by
  unfold State.moveRead
  split
  · next sound =>
    have old : State.boundAt s (Image.grant img).key f := Image.grant_key_of_soundFor sound ▸ bound
    dsimp only
    split
    · exact h.post_placesOk held cmd _
    · exact State.take_placesOk h cmd (by rintro o ⟨rfl⟩; exact old) held
  · exact (h.markCorrupt e img).post_placesOk held cmd _

variable (ordered : State.indexOk s)
include ordered

theorem State.drawStruckB_placesOk (d : Drawing) (verifiedA verifiedB : Bool) :
    State.placesOk (State.drawStruckB s cmd d e verifiedA f verifiedB) := by
  unfold State.drawStruckB
  split
  · exact h.claimStep_placesOk (.inl held) (.inl rfl) cmd _
      (h.forall_frame (k := .read f) rfl (P := State.boundAt s e.key) bound cmd (.drawReadBack d e))
  · dsimp only
    split
    · exact State.retire_placesOk h cmd ordered held bound _
    · exact h.post_placesOk held cmd _

theorem State.revokeRead_placesOk (snap : Snapshot) (img : Image) :
    State.placesOk (State.revokeRead s cmd snap e f img) := by
  unfold State.revokeRead
  dsimp only
  split
  · exact State.retire_placesOk h cmd ordered held bound _
  · split
    · split
      · split
        · exact State.retire_placesOk h cmd ordered held (Image.grant_key_of_soundFor ‹_› ▸ bound) _
        · exact h.post_placesOk held cmd _
      · exact h.post_placesOk held cmd _
    · exact State.retire_placesOk (h.markCorrupt e img) cmd (pairwise_markEntry ordered) held
        (State.boundAt_markCorrupt bound e img) _

end Reads

/-! ### CONFIGURE CLASS and PURGE ORPHANS -/

section Others

variable {s : State} (h : State.MayGoOn s) (held : s.engine.held = none) (cmd : Command)
include h held

theorem State.configureStruck_placesOk (k : ClassNo) (p : Policy) (verified : Bool) :
    State.placesOk (State.configureStruck s cmd k p verified) := by
  unfold State.configureStruck
  split
  · exact (h.setStatus k _).post_placesOk held cmd _
  · exact h.claimStep_placesOk (.inl held) (.inl rfl) cmd _ trivial

theorem State.purgeNext_placesOk {members : List Frame} (once : members.Nodup)
    (quarantined : ∀ g ∈ members, g ∈ s.pools.quarantine) (moved failed : Nat) :
    State.placesOk (State.purgeNext s cmd members moved failed) := by
  unfold State.purgeNext
  split
  · next f rest =>
    exact h.claimStep_placesOk (.inl held) (.inl rfl) cmd _
      (h.forall_frame (k := .strike f _) rfl
        (P := fun g => (g :: rest).Nodup ∧ ∀ x ∈ g :: rest, x ∈ s.pools.quarantine) ⟨once, quarantined⟩ cmd
        (.purgeStrike rest moved failed))
  · exact h.post_placesOk held cmd _

theorem State.purgeStruck_placesOk {f : Frame} {rest : List Frame} (once : (f :: rest).Nodup)
    (quarantined : ∀ g ∈ f :: rest, g ∈ s.pools.quarantine) (moved failed : Nat) (verified : Bool) :
    State.placesOk (State.purgeStruck s cmd f rest moved failed verified) := by
  obtain ⟨struck, once⟩ := List.nodup_cons.mp once
  refine State.purgeNext_placesOk (h.purged (quarantined f List.mem_cons_self)) held cmd once (fun g hg => ?_) _ _
  refine List.mem_filter.mpr ⟨quarantined g (List.mem_cons_of_mem f hg), ?_⟩
  simpa using fun same : g = f => struck (same ▸ hg)

end Others

/-! ### FORMAT -/

/-- The bad-frame map as read holds grant frames, each once (R147). -/
theorem Image.badFrames_grant {img : Image} {f : Frame} (h : f ∈ Image.badFrames img) : 3 ≤ f.val := by
  obtain ⟨n, -, found⟩ := List.mem_filterMap.mp h
  split at found
  · simp only [Option.ite_none_right_eq_some, Bool.and_eq_true, decide_eq_true_eq, Option.some.injEq] at found
    obtain ⟨⟨grant, -⟩, rfl⟩ := found
    exact grant
  · cases found

theorem Image.badFrames_nodup (img : Image) : (Image.badFrames img).Nodup := by
  refine List.nodup_range.filterMap fun m n f hm hn => ?_
  split at hm
  · split at hn
    · simp only [Option.mem_def, Option.ite_none_right_eq_some, Option.some.injEq] at hm hn
      obtain ⟨⟨-, rfl⟩, ⟨-, same⟩⟩ := And.intro hm hn
      exact (Fin.mk.inj same).symm
    · cases hn
  · cases hm

/-- A mount begins: no frame but the bad ones has a place (R146). -/
theorem State.beginMount_placesOk {s : State} (unused : s.pools.free = [] ∧ s.pools.reclaim = [] ∧ s.pools.quarantine = [])
    (empty : s.index = []) (held : s.engine.held = none) (nodup : s.pools.bad.Nodup) (grant : ∀ f ∈ s.pools.bad, 3 ≤ f.val)
    (jobs : ∀ j ∈ s.engine.job, EngineStep.mounts j.step = true)
    (erases : ∀ f, ¬ Controller.Erases s.ctrl f) : State.placesOk (State.beginMount s) := by
  have places : State.places (State.beginMount s) = s.pools.bad := by
    simp [State.places, State.scannedFrames, unused, empty, held]
  have erases : ∀ f, ¬ Controller.Erases (State.beginMount s).ctrl f :=
    fun f began => erases f (Controller.erases_of_claim began)
  refine ⟨places ▸ nodup, places ▸ grant, nofun, by simp [held],
    fun _ e since ho background => absurd (.inl ⟨e, since, background ▸ ho, rfl⟩) (erases e.frame),
    fun e he => absurd (.inr ⟨e, he, rfl⟩) (erases e.frame), fun j hj => ⟨?_, nofun⟩, ?_⟩
  · obtain ⟨f, hf⟩ := EngineStep.mounts_iff.mp (jobs j hj)
    rw [hf]
    trivial
  · rintro w ⟨rfl⟩
    exact ⟨fun _ => unused, trivial⟩

section Format

variable {s : State} (h : State.MayGoOn s) (held : s.engine.held = none)
  (unused : s.pools.free = [] ∧ s.pools.reclaim = [] ∧ s.pools.quarantine = []) (empty : s.index = [])
include h held unused

include empty in
/-- Under FORMAT the bad-frame map changes, no other frame having a place (R159, R161). -/
theorem State.MayGoOn.setBad (notReady : s.part ≠ .ready) {bad : List Frame} (nodup : bad.Nodup)
    (grant : ∀ f ∈ bad, 3 ≤ f.val) : State.MayGoOn (State.setPools s { s.pools with bad := bad }) := by
  have places : State.places (State.setPools s { s.pools with bad := bad }) = bad := by
    simp [State.places, State.scannedFrames, unused, empty, held, h.work]
  exact ⟨h.work, h.calm, by rwa [places], by rwa [places], fun ready => absurd ready notReady, h.erases⟩

variable (cmd : Command)

theorem State.formatSweep_placesOk (f : Formatting) (n : Nat) : State.placesOk (State.formatSweep s cmd f n) := by
  unfold State.formatSweep
  split
  · next g found =>
    exact h.claimStep_placesOk (.inl held) (.inr unused) cmd _
      (h.forall_frame (k := .erase g) rfl (P := fun g => 3 ≤ g.val → g ∉ s.pools.bad)
        (fun _ => (nextFrame_eq_some found).2) cmd (.formatErase f))
  · exact h.claimStep_placesOk (.inl held) (.inr unused) cmd _ trivial

theorem State.formatErased_placesOk (f : Formatting) {g : Frame} (fine : 3 ≤ g.val → g ∉ s.pools.bad) (verified : Bool) :
    State.placesOk (State.formatErased s cmd f g verified) := by
  unfold State.formatErased
  dsimp only
  split
  · split
    · exact h.claimStep_placesOk (.inl held) (.inr unused) cmd _
        (h.forall_frame (k := .erase 1) rfl (P := fun g => 3 ≤ g.val → g ∉ s.pools.bad) nofun cmd (.formatErase _))
    · exact State.formatSweep_placesOk h held unused cmd _ _
  · next grant =>
    have grant : 3 ≤ g.val := by simpa [systemFrame] using grant
    split
    · exact State.formatSweep_placesOk h held unused cmd _ _
    · exact h.claimStep_placesOk (.inl held) (.inr unused) cmd _ ⟨grant, fine grant⟩

include empty in
/-- FORMAT has read the bad-frame map and erases frame 0 (R160). -/
theorem State.formatMapLoaded_placesOk (notReady : s.part ≠ .ready) (f : Formatting) {bad : List Frame}
    (nodup : bad.Nodup) (grant : ∀ f ∈ bad, 3 ≤ f.val) :
    State.placesOk
      (State.claimStep (State.setPools s { s.pools with bad := bad }) cmd (.formatErase f) (.erase 0)) := by
  have loaded := h.setBad held unused empty notReady nodup grant
  exact loaded.claimStep_placesOk (.inl held) (.inr unused) cmd _
    (loaded.forall_frame (k := .erase 0) rfl (P := fun g => 3 ≤ g.val → g ∉ bad) nofun cmd (.formatErase f))

include empty in
theorem State.formatMarked_placesOk (notReady : s.part ≠ .ready) (f : Formatting) {g : Frame} (grant : 3 ≤ g.val)
    (unmarked : g ∉ s.pools.bad) (verified : Bool) : State.placesOk (State.formatMarked s cmd f g verified) := by
  unfold State.formatMarked
  split
  · have marked : State.MayGoOn (State.setPools s { s.pools with bad := insertFrame g s.pools.bad }) := by
      refine h.setBad held unused empty notReady ?_ fun x hx => ?_
      · exact (perm_insertFrame unmarked).nodup_iff.mpr (List.nodup_cons.mpr ⟨unmarked, (State.pools_nodup h.nodup).2.2⟩)
      · obtain rfl | hx := mem_insertFrame.mp hx
        · exact grant
        · exact h.grant x (State.bad_subset_places s hx)
    exact State.formatSweep_placesOk marked held unused cmd _ _
  · exact State.formatSweep_placesOk h held unused cmd _ _

include empty in
theorem State.formatWritten_placesOk (f : Formatting) (verified : Bool) :
    State.placesOk (State.formatWritten s cmd f verified) := by
  unfold State.formatWritten
  split
  · exact State.clearForRestart_placesOk s
  · refine State.beginMount_placesOk (s := State.goStep s cmd _) unused empty held (State.pools_nodup h.nodup).2.2
      (fun x hx => h.grant x (State.bad_subset_places s hx)) (by rintro j ⟨rfl⟩; rfl) fun f erases => ?_
    have reclaimed := h.erases f erases
    simp [unused] at reclaimed

end Format

end Sys2Proof.Machine
end

section
/-! Every frame stays in its one place (R123) where nothing but the controller, the link or the commands that wait changes, and
over the reports to the command in progress. -/

namespace Sys2Proof.Machine

/-! ### What the places depend on -/

section Transport

variable {s t : State} (index : t.index = s.index) (pools : t.pools = s.pools) (held : t.engine.held = s.engine.held)
  (fg : ∀ f ∈ Controller.foregroundFrame t.ctrl, f ∈ Controller.foregroundFrame s.ctrl)
include index pools

include held in
theorem State.places_of_eq (work : t.mount.work = s.mount.work) : State.places t = State.places s := by
  simp only [State.places, State.scannedFrames, index, pools, held, work]

include fg

include held in
theorem EngineStep.framesOk_of_eq (demand : Controller.Unreclaiming s.ctrl → Controller.Unreclaiming t.ctrl)
    {step : EngineStep} (h : EngineStep.framesOk s step) : EngineStep.framesOk t step := by
  cases step <;> simp only [EngineStep.framesOk, State.boundAt, Writing.oldBound, index, pools, held] at h ⊢
  all_goals simp_all

omit index pools in
theorem MountWork.framesOk_of_eq (bad : t.pools.bad = s.pools.bad) (places : State.places t = State.places s)
    {w : MountWork} (h : MountWork.framesOk w s) : MountWork.framesOk w t := by
  unfold MountWork.framesOk at h ⊢
  split <;> simp_all [State.scanReached, State.allPlaced]

end Transport

/-- The places rest on the pools, the index, the hold, the command in progress, the mount, and of the controller on the
foreground's frame and on what background reclaim works on. -/
theorem State.placesOk_of_eq {s t : State} (h : State.placesOk s) (index : t.index = s.index) (pools : t.pools = s.pools)
    (held : t.engine.held = s.engine.held) (job : t.engine.job = s.engine.job) (work : t.mount.work = s.mount.work)
    (part : t.part = s.part)
    (fg : ∀ f ∈ Controller.foregroundFrame t.ctrl, f ∈ Controller.foregroundFrame s.ctrl)
    (demand : Controller.Unreclaiming s.ctrl → Controller.Unreclaiming t.ctrl)
    (erases : ∀ f, Controller.Erases t.ctrl f → Controller.Erases s.ctrl f) : State.placesOk t := by
  have reclaims : ∀ f, Controller.Erases t.ctrl f → f ∈ t.pools.reclaim :=
    fun f works => pools ▸ State.erases_of_placesOk h (erases f works)
  have places : State.places t = State.places s := State.places_of_eq index pools held work
  obtain ⟨nodup, grant, all, holds, -, -, jobs, mounts⟩ := h
  refine ⟨places ▸ nodup, places ▸ grant, ?_, ?_,
    fun _ e since ho background => reclaims _ (.inl ⟨e, since, background ▸ ho, rfl⟩),
    fun e he => reclaims _ (.inr ⟨e, he, rfl⟩), fun j hj => ?_, fun w hw => ?_⟩
  · simpa only [State.allPlaced, places, part] using all
  · simpa only [held, job] using holds
  · obtain ⟨rests, unused⟩ := jobs j (job ▸ hj)
    exact ⟨EngineStep.framesOk_of_eq index pools held fg demand rests, by simpa only [work, pools] using unused⟩
  · obtain ⟨unused, rests⟩ := mounts w (work ▸ hw)
    exact ⟨by simpa only [pools] using unused, MountWork.framesOk_of_eq fg (by rw [pools]) places rests⟩

theorem State.LinkPortOnly.placesOk {s t : State} (h : State.LinkPortOnly s t) (places : State.placesOk s) :
    State.placesOk t :=
  State.placesOk_of_eq places h.index h.pools h.held h.job (by rw [h.mount]) h.part (by simp [h.ctrl]) (by simp [h.ctrl])
    (by simp [h.ctrl])

theorem EngineStep.framesOk_of_job {s : State} (places : State.placesOk s) {j : Job} (hj : s.engine.job = some j) :
    EngineStep.framesOk s j.step := by
  obtain ⟨-, -, -, -, -, -, jobs, -⟩ := places
  exact (jobs j hj).1

/-! ### The operation in progress ends -/

/-- The operation in progress ended, `m` and `link` being the array and the link as it left them. -/
abbrev State.opEnds (s : State) (m : Memory) (link : LinkPort) : State :=
  { s with ctrl := { s.ctrl with op := none }, array := m, link := link }

theorem State.opEnds_opEnded (s : State) (m : Memory) (link : LinkPort) : State.OpEnded s (State.opEnds s m link) :=
  ⟨rfl, rfl, rfl, rfl, rfl⟩

theorem Controller.erases_of_idle {c d : Controller} (idle : d.op = none) (suspended : d.suspended = c.suspended) {f : Frame}
    (h : Controller.Erases d f) : Controller.Erases c f := by
  obtain ⟨e, since, ho, -⟩ | works := h
  · simp [idle] at ho
  · exact .inr (suspended ▸ works)

section Report

variable {s : State} (work : State.workOk s) (keys : State.keysOk s) (places : State.placesOk s) (m : Memory)
  (link : LinkPort)
include work places

theorem State.opEnds_placesOk : State.placesOk (State.opEnds s m link) := by
  obtain ⟨-, -, waits, -⟩ := work
  refine State.placesOk_of_eq places rfl rfl rfl rfl rfl rfl
    (fun f hf => Controller.foregroundFrame_of_ended (c := s.ctrl) (d := { s.ctrl with op := none }) rfl rfl waits hf)
    (fun demand => ⟨demand.1, rfl⟩)
    (fun f => Controller.erases_of_idle (c := s.ctrl) (d := { s.ctrl with op := none }) rfl rfl)

omit work in
theorem State.opEnds_mayGoOn (off : s.mount.work = none) : State.MayGoOn (State.opEnds s m link) := by
  have ⟨nodup, grant, all, _⟩ := places
  exact ⟨off, rfl, nodup, grant, all, fun f erases =>
    State.erases_of_placesOk places (Controller.erases_of_idle (c := s.ctrl) (d := { s.ctrl with op := none }) rfl rfl erases)⟩

omit m link in
include keys in
/-- Under FORMAT, outside its mount, no frame but the bad ones has a place, and the part is not READY (R159). -/
theorem State.unused_of_formats (off : s.mount.work = none) {j : Job} (hj : s.engine.job = some j)
    (formats : EngineStep.formats j.step = true) :
    (s.pools.free = [] ∧ s.pools.reclaim = [] ∧ s.pools.quarantine = []) ∧ s.index = [] ∧ s.part ≠ .ready := by
  obtain ⟨-, -, -, -, -, notReady, -⟩ := work
  obtain ⟨-, empty, -⟩ := keys
  obtain ⟨-, -, -, -, -, -, jobs, -⟩ := places
  exact ⟨(jobs j hj).2 formats off, (empty j hj).2 formats off, notReady j hj formats⟩

variable (off : s.mount.work = none) {j : Job} (hj : s.engine.job = some j) {f : Frame}
  (fg : Controller.foregroundFrame s.ctrl = some f)
include keys off hj fg

theorem State.engineRead_placesOk (img : Image) :
    State.placesOk (State.engineRead (State.opEnds s m link) j f img) := by
  have calm : State.MayGoOn (State.opEnds s m link) := State.opEnds_mayGoOn places m link off
  have stays : State.placesOk (State.opEnds s m link) := State.opEnds_placesOk work places m link
  have held (plain : EngineStep.holds j.step = false) : s.engine.held = none :=
    State.held_none_of_placesOk places (by simpa [hj] using plain)
  have format := State.unused_of_formats work keys places off hj
  have rests := EngineStep.framesOk_of_job places hj
  obtain ⟨ordered, -⟩ := keys
  obtain ⟨cmd, step⟩ := j
  cases step <;> simp only [EngineStep.framesOk, fg, Option.mem_some_iff, forall_eq'] at rests <;>
    dsimp only [State.engineRead]
  case lookupRead snap e => exact State.lookupRead_placesOk calm (held rfl) cmd snap img
  case drawRead snap e => exact State.drawRead_placesOk calm (held rfl) cmd rests snap img
  case drawReadBack d e => exact State.drawReadBack_placesOk calm (held rfl) cmd d img
  case topupRead snap e => exact State.topupRead_placesOk calm (held rfl) cmd rests snap img
  case moveRead e => exact State.moveRead_placesOk calm (held rfl) cmd rests img
  case revokeRead snap e => exact State.revokeRead_placesOk calm (held rfl) cmd rests ordered snap img
  case configureRead k => exact (calm.setStatus k _).post_placesOk (held rfl) cmd _
  case formatMapRead fm =>
    obtain ⟨unused, empty, notReady⟩ := format rfl
    have nodup := Image.badFrames_nodup img
    have grant : ∀ g ∈ Image.badFrames img, 3 ≤ g.val := fun g => Image.badFrames_grant
    generalize Image.badFrames img = bad at nodup grant ⊢
    exact State.formatMapLoaded_placesOk calm (held rfl) unused empty cmd notReady fm nodup grant
  all_goals exact stays

theorem State.engineStruck_placesOk (verified : Bool) :
    State.placesOk (State.engineStruck (State.opEnds s m link) j f verified) := by
  have calm : State.MayGoOn (State.opEnds s m link) := State.opEnds_mayGoOn places m link off
  have stays : State.placesOk (State.opEnds s m link) := State.opEnds_placesOk work places m link
  have held (plain : EngineStep.holds j.step = false) : s.engine.held = none :=
    State.held_none_of_placesOk places (by simpa [hj] using plain)
  have format := State.unused_of_formats work keys places off hj
  have rests := EngineStep.framesOk_of_job places hj
  obtain ⟨ordered, -⟩ := keys
  obtain ⟨cmd, step⟩ := j
  cases step <;> simp only [EngineStep.framesOk, fg, Option.mem_some_iff, forall_eq'] at rests <;>
    dsimp only [State.engineStruck]
  case drawStrikeA d e => exact State.drawStruckA_placesOk calm (held rfl) cmd rests d verified
  case drawStrikeB d e verifiedA => exact State.drawStruckB_placesOk calm (held rfl) cmd rests ordered d verifiedA verified
  case takeMark g w =>
    obtain ⟨old, demand, head⟩ := rests
    exact State.demandMarked_placesOk calm cmd old (held rfl) ⟨demand.1, rfl⟩ head verified
  case openingStrike w =>
    obtain ⟨old, holds⟩ := rests
    split
    · exact State.claimHeld_placesOk calm cmd old holds .body _
    · exact State.newFrameFailed_placesOk calm cmd old holds
  case bodyStrike w =>
    obtain ⟨old, holds⟩ := rests
    split
    · exact State.claimHeld_placesOk calm cmd old holds .live _
    · exact State.newFrameFailed_placesOk calm cmd old holds
  case liveStrike w =>
    obtain ⟨old, holds⟩ := rests
    split
    · exact State.newFrameLive_placesOk calm cmd old holds
    · exact State.newFrameFailed_placesOk calm cmd old holds
  case newFrameMark g w => exact State.newFrameReleased_placesOk calm cmd rests.1 rests.2 verified
  case movedStrike w o new => exact State.movedDone_placesOk calm cmd ordered rests.1 rests.2 verified
  case retiredStrike e => exact State.retiredDone_placesOk calm cmd ordered (held rfl) rests verified
  case fallbackMark g fallback lost => exact State.fallbackMarked_placesOk calm cmd rests fallback lost verified
  case configureStrike k p => exact State.configureStruck_placesOk calm (held rfl) cmd k p verified
  case purgeStrike rest moved failed =>
    obtain ⟨once, quarantined⟩ := rests
    exact State.purgeStruck_placesOk calm (held rfl) cmd once quarantined moved failed verified
  case formatMark g fm =>
    obtain ⟨unused, empty, notReady⟩ := format rfl
    obtain ⟨grant, unmarked⟩ := rests
    exact State.formatMarked_placesOk calm (held rfl) unused empty cmd notReady fm grant unmarked verified
  case formatRecord fm =>
    obtain ⟨unused, empty, -⟩ := format rfl
    exact State.formatWritten_placesOk calm (held rfl) unused empty cmd fm verified
  all_goals exact stays

theorem State.engineErased_placesOk (verified : Bool) :
    State.placesOk (State.engineErased (State.opEnds s m link) j f verified) := by
  have calm : State.MayGoOn (State.opEnds s m link) := State.opEnds_mayGoOn places m link off
  have stays : State.placesOk (State.opEnds s m link) := State.opEnds_placesOk work places m link
  have held (plain : EngineStep.holds j.step = false) : s.engine.held = none :=
    State.held_none_of_placesOk places (by simpa [hj] using plain)
  have format := State.unused_of_formats work keys places off hj
  have rests := EngineStep.framesOk_of_job places hj
  obtain ⟨cmd, step⟩ := j
  cases step <;> simp only [EngineStep.framesOk, fg, Option.mem_some_iff, forall_eq'] at rests <;>
    dsimp only [State.engineErased]
  case takeErase w =>
    obtain ⟨old, demand, head⟩ := rests
    exact State.demandErased_placesOk calm cmd old (held rfl) ⟨demand.1, rfl⟩ head verified
  case fallbackErase fallback lost => exact State.fallbackErased_placesOk calm cmd rests fallback lost verified
  case formatErase fm => exact State.formatErased_placesOk calm (held rfl) (format rfl).1 cmd fm rests verified
  all_goals exact stays

end Report

end Sys2Proof.Machine
end

section
/-! Every frame stays in its one place (R123) while a mount goes on: its scan (R149), the resolution of candidates (R155) and its
walk (R156). -/

namespace Sys2Proof.Machine

/-! ### What a mount's going on rests on -/

/-- The frames that have a place while a mount scans: the bad ones and those scanned so far. -/
def State.scanPlaces (t : State) (scanned : List (Frame × Placement)) : List Frame :=
  t.pools.bad ++ scanned.map fun q => q.1

/-- A mount may claim with the frames scanned so far: no frame has a place but them and the bad ones, each of them one place. -/
structure State.ScanPlaced (t : State) (scanned : List (Frame × Placement)) : Prop where
  idle : t.ctrl.op = none
  unused : t.pools.free = [] ∧ t.pools.reclaim = [] ∧ t.pools.quarantine = []
  empty : t.index = []
  held : t.engine.held = none
  notReady : t.part ≠ .ready
  jobs : ∀ j ∈ t.engine.job, EngineStep.mounts j.step = true
  erases : ∀ f, ¬ Controller.Erases t.ctrl f
  nodup : (State.scanPlaces t scanned).Nodup
  grant : ∀ f ∈ State.scanPlaces t scanned, 3 ≤ f.val

/-- What the end of frame `f` by a mount rests on: in the scan it is the next frame to have a place, in the resolution every frame
has one. -/
def MountNext.Rests (bad places : List Frame) (f : Frame) : MountNext → Prop
  | .scan => f ∉ bad ∧ ∀ g : Frame, 3 ≤ g.val → g < f → g ∈ places
  | .resolve _ _ => ∀ g : Frame, 3 ≤ g.val → g ∈ places

/-- The steps of a mount that wait for an operation on a frame it scans or ends, and what the mount goes on with after it. -/
inductive MountStep.Ends : MountStep → MountNext → Prop
  | scanRead : MountStep.Ends .scanRead .scan
  | regularise (found : Scanned) : MountStep.Ends (.regularise found) .scan
  | retire : MountStep.Ends .retire .scan
  | movedStrike (next : MountNext) : MountStep.Ends (.movedStrike next) next
  | fallbackErase (next : MountNext) : MountStep.Ends (.fallbackErase next) next

theorem MountStep.Ends.framesOk_iff {step : MountStep} {next : MountNext} (ends : MountStep.Ends step next)
    {scanned : List (Frame × Placement)} {u : State} {f : Frame} (fg : Controller.foregroundFrame u.ctrl = some f) :
    MountWork.framesOk { step := step, scanned := scanned } u ↔
      MountNext.Rests u.pools.bad (State.places u) f next := by
  cases ends <;> simp only [MountWork.framesOk, fg, Option.mem_some_iff, forall_eq', MountNext.Rests]
  case movedStrike => cases next <;> simp
  case fallbackErase => cases next <;> simp

theorem MountWork.framesOk_fallbackMark_iff {f : Frame} {next : MountNext} {scanned : List (Frame × Placement)} {u : State} :
    MountWork.framesOk { step := .fallbackMark f next, scanned := scanned } u ↔
      MountNext.Rests u.pools.bad (State.places u) f next := by
  cases next <;> rfl

/-- The frames that have a place once a mount ended frame `f`. -/
def MountNext.Done (places : List Frame) (f : Frame) : MountNext → Prop
  | .scan => ∀ g : Frame, 3 ≤ g.val → g ≤ f → g ∈ places
  | .resolve _ _ => ∀ g : Frame, 3 ≤ g.val → g ∈ places

/-- The frames a walk over the bad-frame map passes by are bad. -/
theorem mem_of_nextFrame_eq_some {bad : List Frame} {fuel n : Nat} {f : Frame} (h : nextFrame bad fuel n = some f) {g : Frame}
    (ge : n ≤ g.val) (lt : g < f) : g ∈ bad := by
  induction fuel generalizing n with
  | zero => simp [nextFrame] at h
  | succ fuel ih =>
    unfold nextFrame at h
    split at h
    · split at h
      · next marked =>
        rcases Nat.eq_or_lt_of_le ge with rfl | ge
        · exact marked
        · exact ih h ge
      · obtain rfl := Option.some.inj h
        exact absurd lt (Fin.not_lt.mpr (Fin.le_def.mpr ge))
    · simp at h

theorem mem_of_nextFrame_eq_none {bad : List Frame} {fuel n : Nat} (h : nextFrame bad fuel n = none)
    (enough : 2048 ≤ n + fuel) {g : Frame} (ge : n ≤ g.val) : g ∈ bad := by
  induction fuel generalizing n with
  | zero => omega
  | succ fuel ih =>
    unfold nextFrame at h
    split at h
    · split at h
      · next marked =>
        rcases Nat.eq_or_lt_of_le ge with rfl | ge
        · exact marked
        · exact ih h (by omega) ge
      · simp at h
    · omega

/-- A mount in progress is seen from its frames: the places are those of the bad frames and of the scan. -/
theorem State.ScanPlaced.placesOk {t u : State} {w : MountWork} (h : State.ScanPlaced t w.scanned)
    (pools : u.pools = t.pools) (index : u.index = t.index) (engine : u.engine.job = t.engine.job)
    (held : u.engine.held = t.engine.held) (part : u.part = t.part) (work : u.mount.work = some w)
    (erases : ∀ f, Controller.Erases u.ctrl f → Controller.Erases t.ctrl f)
    (rests : State.places u = State.scanPlaces t w.scanned → MountWork.framesOk w u) : State.placesOk u := by
  have places : State.places u = State.scanPlaces t w.scanned := by
    simp [State.places, State.scanPlaces, State.scannedFrames, pools, index, held, work, h.unused, h.empty, h.held]
  have erases (f : Frame) (works : Controller.Erases u.ctrl f) : False := h.erases f (erases f works)
  refine ⟨places ▸ h.nodup, places ▸ h.grant, fun ready => absurd (part.symm.trans ready) h.notReady, ?_,
    fun _ e since ho background => (erases e.frame (.inl ⟨e, since, background ▸ ho, rfl⟩)).elim,
    fun e he => (erases e.frame (.inr ⟨e, he, rfl⟩)).elim, fun j hj => ?_, fun v hv => ?_⟩
  · simp [held, h.held]
  · obtain ⟨f, hf⟩ := EngineStep.mounts_iff.mp (h.jobs j (engine ▸ hj))
    rw [hf]
    exact ⟨trivial, fun _ off => by simp [work] at off⟩
  · obtain rfl : w = v := Option.some.inj (work.symm.trans hv)
    exact ⟨fun _ => pools ▸ h.unused, rests places⟩

namespace State.ScanPlaced

variable {t : State} {w : MountWork} (h : State.ScanPlaced t w.scanned)
include h

/-- The mount goes on to a step that ends the frame `f`. -/
theorem mountClaim_placesOk {f : Frame} {k : Claim} (frame : Claim.frame k = some f) {step : MountStep}
    {next : MountNext} (ends : MountStep.Ends step next)
    (rests : MountNext.Rests t.pools.bad (State.scanPlaces t w.scanned) f next) :
    State.placesOk (State.mountClaim t { w with step := step } k) := by
  refine State.ScanPlaced.placesOk (w := { w with step := step }) h rfl rfl rfl rfl rfl rfl
    (fun _ => Controller.erases_of_claim) fun places => ?_
  rw [ends.framesOk_iff ((Controller.foregroundFrame_claim h.idle k).trans frame), places]
  exact rests

/-- The mount goes on to a step that rests on no place. -/
theorem claim_placesOk {k : Claim} {step : MountStep}
    (rests : MountWork.framesOk { w with step := step } (State.mountClaim t { w with step := step } k)) :
    State.placesOk (State.mountClaim t { w with step := step } k) :=
  State.ScanPlaced.placesOk (w := { w with step := step }) h rfl rfl rfl rfl rfl rfl
    (fun _ => Controller.erases_of_claim) fun _ => rests

theorem setPolicies (policies : Vector ClassStatus 16) (holds : Vector Bool 16) :
    State.ScanPlaced { t with policies := policies, engine := { t.engine with holds := holds } } w.scanned :=
  ⟨h.idle, h.unused, h.empty, h.held, h.notReady, h.jobs, h.erases, h.nodup, h.grant⟩

theorem setReport (r : MountReport) : State.ScanPlaced (State.setReport t r) w.scanned :=
  ⟨h.idle, h.unused, h.empty, h.held, h.notReady, h.jobs, h.erases, h.nodup, h.grant⟩

/-! ### The scan and the resolution -/

/-- When every grant frame has a place the resolution goes on, and the walk begins with every frame placed (R155, R156). -/
theorem resolve_placesOk (all : ∀ g : Frame, 3 ≤ g.val → g ∈ State.scanPlaces t w.scanned)
    (todo winners : List Candidate) : State.placesOk (State.resolve t w todo winners) := by
  induction todo generalizing winners with
  | nil =>
    refine State.ScanPlaced.placesOk (u := State.beginWalk t w) (w := { w with step := .walk }) h rfl rfl rfl rfl rfl rfl
      (fun _ works => works) fun places => ?_
    simpa only [MountWork.framesOk, State.allPlaced, places] using all
  | cons q todo ih =>
    unfold State.resolve
    split
    · exact ih _
    · exact (h.setReport _).mountClaim_placesOk rfl (.movedStrike _) all

/-- The scan goes on from frame `n`, the frames below it having a place (R149). -/
theorem scanFrom_placesOk {n : Nat} (below : ∀ g : Frame, 3 ≤ g.val → g.val < n → g ∈ State.scanPlaces t w.scanned) :
    State.placesOk (State.scanFrom t w n) := by
  unfold State.scanFrom
  split
  · next f found =>
    refine h.mountClaim_placesOk rfl .scanRead ⟨(nextFrame_eq_some found).2, fun g grant lt => ?_⟩
    rcases Nat.lt_or_ge g.val n with lt' | ge
    · exact below g grant lt'
    · exact List.mem_append_left _ (mem_of_nextFrame_eq_some found ge lt)
  · next none =>
    refine h.resolve_placesOk (fun g grant => ?_) _ _
    rcases Nat.lt_or_ge g.val n with lt | ge
    · exact below g grant lt
    · exact List.mem_append_left _ (mem_of_nextFrame_eq_none none (by omega) ge)

theorem mountGoesOn_placesOk {f : Frame} {next : MountNext} (done : MountNext.Done (State.scanPlaces t w.scanned) f next) :
    State.placesOk (State.mountGoesOn t w f next) := by
  cases next with
  | scan => exact h.scanFrom_placesOk fun g grant lt => done g grant (Nat.le_of_lt_succ lt)
  | resolve todo winners => exact h.resolve_placesOk done todo winners

/-! ### A frame is placed -/

section Ended

variable {f : Frame} {next : MountNext} (order : MountNext.restsOn w.scanned f next)
  (rests : MountNext.Rests t.pools.bad (State.scanPlaces t w.scanned) f next)
include order rests

/-- A frame that mount ended is placed (R151, R152, R155). -/
theorem ended (p : Placement) :
    State.ScanPlaced t (MountWork.ended w f next p).scanned ∧
      MountNext.Done (State.scanPlaces t (MountWork.ended w f next p).scanned) f next := by
  cases next with
  | scan =>
    obtain ⟨unmarked, below⟩ := rests
    have places : State.scanPlaces t (MountWork.placed w f p).scanned = State.scanPlaces t w.scanned ++ [f] := by
      simp [State.scanPlaces, MountWork.placed]
    have new : f ∉ State.scanPlaces t w.scanned := by
      simp only [State.scanPlaces, List.mem_append, List.mem_map, not_or]
      refine ⟨unmarked, ?_⟩
      rintro ⟨q, hq, rfl⟩
      exact absurd (order.2 q hq) (Fin.not_lt.mpr (Fin.le_refl _))
    refine ⟨⟨h.idle, h.unused, h.empty, h.held, h.notReady, h.jobs, h.erases, ?_, fun g hg => ?_⟩, fun g grant le => ?_⟩
    · exact places ▸ List.nodup_append.mpr ⟨h.nodup, by simp, fun g hg x hx same =>
        new (same.trans (List.mem_singleton.mp hx) ▸ hg)⟩
    · rcases List.mem_append.mp (places ▸ hg) with hg | hg
      · exact h.grant g hg
      · exact List.mem_singleton.mp hg ▸ order.1
    · refine places ▸ List.mem_append.mpr ?_
      rcases Fin.lt_or_eq_of_le le with lt | rfl
      · exact .inl (below g grant lt)
      · simp
  | resolve todo winners =>
    have places : State.scanPlaces t (MountWork.replaced w f p).scanned = State.scanPlaces t w.scanned := by
      simp only [State.scanPlaces, MountWork.map_fst_replaced]
    exact
      ⟨⟨h.idle, h.unused, h.empty, h.held, h.notReady, h.jobs, h.erases, places ▸ h.nodup, places ▸ h.grant⟩,
        places ▸ rests⟩

theorem ended_placesOk (p : Placement) :
    State.placesOk (State.mountGoesOn t (MountWork.ended w f next p) f next) :=
  have ⟨placed, done⟩ := h.ended order rests p
  placed.mountGoesOn_placesOk done

/-- A frame that mount marked bad leaves the scan for the bad-frame map (R152, R155). -/
theorem marked_placesOk :
    State.placesOk
      (State.mountGoesOn (State.setPools t { t.pools with bad := insertFrame f t.pools.bad }) (MountWork.dropped w f) f
        next) := by
  let bads : List Frame := insertFrame f t.pools.bad
  have goesOn {places : List Frame} (perm : (bads ++ removeFrame f (w.scanned.map fun q => q.1)).Perm places)
      (nodup : places.Nodup) (grant : ∀ g ∈ places, 3 ≤ g.val) (done : MountNext.Done places f next) :
      State.placesOk
        (State.mountGoesOn (State.setPools t { t.pools with bad := bads }) (MountWork.dropped w f) f next) := by
    have same : State.scanPlaces (State.setPools t { t.pools with bad := bads }) (MountWork.dropped w f).scanned =
        bads ++ removeFrame f (w.scanned.map fun q => q.1) := by
      simp [State.scanPlaces, MountWork.dropped, removeFrame, List.filter_map, Function.comp_def]
    rw [← same] at perm
    refine mountGoesOn_placesOk (t := State.setPools t { t.pools with bad := bads }) (w := MountWork.dropped w f)
      ⟨h.idle, h.unused, h.empty, h.held, h.notReady, h.jobs, h.erases, perm.nodup_iff.mpr nodup,
        fun g hg => grant g (perm.mem_iff.mp hg)⟩ ?_
    cases next with
    | scan => exact fun g ge le => perm.mem_iff.mpr (done g ge le)
    | resolve todo winners => exact fun g ge => perm.mem_iff.mpr (done g ge)
  obtain ⟨-, once, apart⟩ := List.nodup_append.mp h.nodup
  cases next with
  | scan =>
    obtain ⟨unmarked, below⟩ := rests
    have unscanned : f ∉ w.scanned.map fun q => q.1 := by
      simp only [List.mem_map, not_exists, not_and]
      exact fun q hq same => absurd (order.2 q hq) (by simp [same])
    have rest : removeFrame f (w.scanned.map fun q => q.1) = w.scanned.map fun q => q.1 :=
      List.filter_eq_self.mpr fun g hg => by simpa using fun same : g = f => unscanned (same ▸ hg)
    refine goesOn (places := f :: State.scanPlaces t w.scanned) ?_ ?_ ?_ fun g grant le => ?_
    · rw [rest]
      exact (perm_insertFrame unmarked).append_right _
    · exact List.nodup_cons.mpr ⟨by simpa [State.scanPlaces] using ⟨unmarked, by simpa using unscanned⟩, h.nodup⟩
    · exact List.forall_mem_cons.mpr ⟨order.1, h.grant⟩
    · rcases Fin.lt_or_eq_of_le le with lt | rfl
      · exact List.mem_cons_of_mem f (below g grant lt)
      · exact List.mem_cons_self
  | resolve todo winners =>
    obtain ⟨-, -, scanned, -⟩ := order
    have loser : f ∈ w.scanned.map fun q => q.1 := scanned f List.mem_cons_self
    have unmarked : f ∉ t.pools.bad := fun marked => apart f marked f loser rfl
    refine goesOn (places := State.scanPlaces t w.scanned) ?_ h.nodup h.grant rests
    exact ((perm_insertFrame unmarked).append_right _).trans
      (List.perm_middle.symm.trans ((perm_removeFrame loser once).append_left t.pools.bad))

end Ended

end State.ScanPlaced

/-! ### The completions a mount waits for -/

section Completions

variable {t : State} {w : MountWork} (h : State.ScanPlaced t w.scanned) {f : Frame}
include h

theorem State.mountFallback_placesOk {next : MountNext}
    (rests : MountNext.Rests t.pools.bad (State.scanPlaces t w.scanned) f next) :
    State.placesOk (State.mountFallback t w f next) := h.mountClaim_placesOk rfl (.fallbackErase next) rests

/-- The mark of a frame whose fallback failed is struck (R152). -/
theorem State.markClaim_placesOk {next : MountNext}
    (rests : MountNext.Rests t.pools.bad (State.scanPlaces t w.scanned) f next) (k : Claim) :
    State.placesOk (State.mountClaim t { w with step := .fallbackMark f next } k) := by
  refine State.ScanPlaced.placesOk (w := { w with step := .fallbackMark f next }) h rfl rfl rfl rfl rfl rfl
    (fun _ => Controller.erases_of_claim) fun places => ?_
  rw [MountWork.framesOk_fallbackMark_iff, places]
  exact rests

section Scan

variable (order : MountNext.restsOn w.scanned f .scan)
  (rests : MountNext.Rests t.pools.bad (State.scanPlaces t w.scanned) f .scan)
include order rests

theorem State.scanned_placesOk (found : Scanned) : State.placesOk (State.scanned t w f found) := by
  cases found with
  | free => exact h.ended_placesOk order rests .free
  | dirty =>
    exact (h.setReport { t.mount.report with dirty := t.mount.report.dirty + 1 }).ended_placesOk order rests .reclaim
  | abandoned => exact (h.setReport _).mountClaim_placesOk rfl .retire rests
  | orphan =>
    exact (h.setReport { t.mount.report with orphans := t.mount.report.orphans + 1 }).ended_placesOk order rests
      .quarantine
  | superseded => exact h.ended_placesOk order rests .reclaim
  | ended => exact h.ended_placesOk order rests .reclaim
  | candidate c => exact h.ended_placesOk order rests (.candidate c)

theorem State.scanRead_placesOk (img : Image) : State.placesOk (State.scanRead t w f img) := by
  unfold State.scanRead
  dsimp only
  generalize hu : (if irregular (img 0) then
    State.setReport t { t.mount.report with irregular := t.mount.report.irregular + 1 } else t) = u
  have counted : State.ScanPlaced u w.scanned ∧ u.pools = t.pools := by
    subst hu
    split
    · exact ⟨h.setReport _, rfl⟩
    · exact ⟨h, rfl⟩
  obtain ⟨placed, pools⟩ := counted
  have rests : MountNext.Rests u.pools.bad (State.scanPlaces u w.scanned) f .scan := by
    rw [State.scanPlaces, pools]
    exact rests
  split
  · exact State.scanned_placesOk placed order rests _
  · exact placed.mountClaim_placesOk rfl (.regularise _) rests

end Scan

/-- A mount with no frame scanned yet knows the bad frames alone, or none (R146, R147). -/
theorem State.ScanPlaced.setBad (unscanned : w.scanned = []) {bad : List Frame} (nodup : bad.Nodup)
    (grant : ∀ f ∈ bad, 3 ≤ f.val) : State.ScanPlaced (State.setPools t { t.pools with bad := bad }) w.scanned := by
  have places : State.scanPlaces (State.setPools t { t.pools with bad := bad }) w.scanned = bad := by
    simp [State.scanPlaces, unscanned]
  exact ⟨h.idle, h.unused, h.empty, h.held, h.notReady, h.jobs, h.erases, by rwa [places], by rwa [places]⟩

end Completions

/-! ### A mount ends -/

/-- A mount ends in a part state, every frame with its place in READY; a FORMAT that waited for it posts its result (R162). -/
theorem State.mountEnds_placesOk {t : State} (calm : Controller.foregroundBusy t.ctrl = false)
    (held : t.engine.held = none) (jobs : ∀ j ∈ t.engine.job, EngineStep.mounts j.step = true)
    (erases : ∀ f, Controller.Erases t.ctrl f → f ∈ t.pools.reclaim) (scanned : State.scannedFrames t = [])
    (nodup : (State.places t).Nodup) (grant : ∀ f ∈ State.places t, 3 ≤ f.val) {part : PartState}
    (all : part = .ready → State.allPlaced t) : State.placesOk (State.mountEnds t part) := by
  let u : State := { t with part := part, link := { t.link with mounted := true }, mount := { t.mount with work := none } }
  have places : State.places u = State.places t := by
    simp only [State.places, scanned]
    rfl
  have off : State.MayGoOn u :=
    ⟨rfl, calm, places ▸ nodup, places ▸ grant, fun ready => by simpa only [State.allPlaced, places] using all ready, erases⟩
  cases hj : t.engine.job with
  | none => simpa [State.mountEnds, hj] using off.placesOk_of_no_job hj held
  | some j =>
    obtain ⟨cmd, step⟩ := j
    obtain ⟨f, rfl⟩ := EngineStep.mounts_iff.mp (jobs _ hj)
    simpa only [State.mountEnds, hj] using off.post_placesOk held cmd _

/-! ### The system frames -/

section SystemFrames

variable {t : State} {w : MountWork} (h : State.ScanPlaced t w.scanned) (unscanned : w.scanned = [])
include h unscanned

/-- Frame 0's READ ends the mount with no bad frame, or leaves the frames as they are (R146). -/
theorem State.mountFormat_placesOk (hw : t.mount.work = some w) (img : Image) :
    State.placesOk (State.mountFormat t w img) := by
  have ends {part : PartState} (notReady : part ≠ .ready) :
      State.placesOk (State.mountEnds (State.setPools t { t.pools with bad := [] }) part) := by
    have scanned : State.scannedFrames (State.setPools t { t.pools with bad := [] }) = [] := by
      simp [State.scannedFrames, hw, unscanned]
    have places : State.places (State.setPools t { t.pools with bad := [] }) = [] := by
      rw [State.places, scanned]
      simp [h.unused, h.empty, h.held]
    exact State.mountEnds_placesOk (t := State.setPools t { t.pools with bad := [] })
      (by simp [Controller.foregroundBusy, h.idle]) h.held h.jobs (fun f works => absurd works (h.erases f)) scanned
      (by simp [places]) (by simp [places]) (fun ready => absurd ready notReady)
  unfold State.mountFormat
  split
  · exact ends nofun
  · split
    · exact State.ScanPlaced.claim_placesOk (t := { t with mount := _ }) (step := .readMap)
        ⟨h.idle, h.unused, h.empty, h.held, h.notReady, h.jobs, h.erases, h.nodup, h.grant⟩ trivial
    · exact ends nofun

/-- Frame 2's READ gives the bad frames (R147). -/
theorem State.mountMap_placesOk (img : Image) : State.placesOk (State.mountMap t w img) := by
  have nodup := Image.badFrames_nodup img
  have grant : ∀ g ∈ Image.badFrames img, 3 ≤ g.val := fun g => Image.badFrames_grant
  unfold State.mountMap
  generalize Image.badFrames img = bad at nodup grant ⊢
  exact (h.setBad unscanned nodup grant).claim_placesOk trivial

omit unscanned in
/-- Frame 1's READ begins the scan (R148, R149). -/
theorem State.mountPolicies_placesOk (img : Image) : State.placesOk (State.mountPolicies t w img) := by
  refine (h.setPolicies (w := w) _ _).scanFrom_placesOk fun g grant lt => ?_
  omega

end SystemFrames

end Sys2Proof.Machine
end

section
/-! Every frame stays in its one place (R123) over the reports to a mount and over its walk. -/

namespace Sys2Proof.Machine

theorem EngineStep.holds_of_mounts {step : EngineStep} (mounts : EngineStep.mounts step = true) :
    EngineStep.holds step = false := by
  obtain ⟨f, rfl⟩ := EngineStep.mounts_iff.mp mounts
  rfl

section Report

variable {s : State} (work : State.workOk s) (places : State.placesOk s) {w : MountWork} (hw : s.mount.work = some w)
include work places hw

/-- During a mount the FORMAT before it is at most in progress, and no frame is held (R64, R108). -/
theorem State.held_none_of_mount :
    s.engine.held = none ∧ ∀ j ∈ s.engine.job, EngineStep.mounts j.step = true := by
  obtain ⟨-, -, -, -, -, -, mount⟩ := work
  obtain ⟨jobs, -⟩ := mount w hw
  exact ⟨State.held_none_of_placesOk places fun j hj => EngineStep.holds_of_mounts (jobs j hj), jobs⟩

variable (keys : State.keysOk s) (scans : w.step ≠ .walk)
include keys scans

theorem State.places_eq_scanPlaces : State.places s = State.scanPlaces s w.scanned := by
  obtain ⟨held, -⟩ := State.held_none_of_mount work places hw
  obtain ⟨-, -, -, -, -, -, -, mounts⟩ := places
  obtain ⟨unused, -⟩ := mounts w hw
  obtain ⟨-, -, mount⟩ := keys
  obtain ⟨empty, -⟩ := mount w hw
  simp [State.places, State.scanPlaces, State.scannedFrames, unused scans, empty scans, held, hw]

theorem State.opEnds_scanPlaced (m : Memory) (link : LinkPort) : State.ScanPlaced (State.opEnds s m link) w.scanned := by
  have same := State.places_eq_scanPlaces work places hw keys scans
  obtain ⟨held, jobs⟩ := State.held_none_of_mount work places hw
  have reclaims {f : Frame} := State.erases_of_placesOk places (f := f)
  obtain ⟨mounting, -⟩ := work
  obtain ⟨nodup, grant, -, -, -, -, -, mounts⟩ := places
  obtain ⟨unused, -⟩ := mounts w hw
  obtain ⟨-, -, mount⟩ := keys
  obtain ⟨empty, -⟩ := mount w hw
  refine ⟨rfl, unused scans, empty scans, held, ?_, jobs, fun f works => ?_, same ▸ nodup, same ▸ grant⟩
  · simp [mounting (by simp [hw])]
  · have := reclaims (Controller.erases_of_idle (c := s.ctrl) (d := { s.ctrl with op := none }) rfl rfl works)
    simp [unused scans] at this

theorem State.rests_of_ends {next : MountNext} (ends : MountStep.Ends w.step next) {f : Frame}
    (fg : Controller.foregroundFrame s.ctrl = some f) :
    MountNext.Rests s.pools.bad (State.scanPlaces s w.scanned) f next := by
  rw [← State.places_eq_scanPlaces work places hw keys scans]
  obtain ⟨-, -, -, -, -, -, -, mounts⟩ := places
  exact (ends.framesOk_iff fg).mp (mounts w hw).2

end Report

section Reports

variable {s : State} (work : State.workOk s) (keys : State.keysOk s) (places : State.placesOk s) (m : Memory)
  (link : LinkPort) {w : MountWork} (hw : s.mount.work = some w) {f : Frame}
  (fg : Controller.foregroundFrame s.ctrl = some f)
include work keys places hw fg

theorem State.mountRead_placesOk (img : Image) :
    State.placesOk (State.mountRead (State.opEnds s m link) w f img) := by
  have scan (scans : w.step ≠ .walk) := State.opEnds_scanPlaced work places hw keys scans m link
  have rests {next : MountNext} (ends : MountStep.Ends w.step next) (scans : w.step ≠ .walk) :=
    State.rests_of_ends work places hw keys scans ends fg
  have order := MountWork.stepOk_of_work keys hw
  have stays := State.opEnds_placesOk work places m link
  obtain ⟨step, scanned⟩ := w
  cases step <;> simp only [MountWork.stepOk, fg, Option.mem_some_iff, forall_eq'] at order <;>
    dsimp only [State.mountRead]
  case readFormat => exact State.mountFormat_placesOk (scan nofun) order hw img
  case readMap => exact State.mountMap_placesOk (scan nofun) order img
  case readPolicies => exact State.mountPolicies_placesOk (scan nofun) img
  case scanRead => exact State.scanRead_placesOk (scan nofun) order (rests .scanRead nofun) img
  all_goals exact stays

theorem State.mountStruck_placesOk (verified : Bool) :
    State.placesOk (State.mountStruck (State.opEnds s m link) w f verified) := by
  have scan (scans : w.step ≠ .walk) := State.opEnds_scanPlaced work places hw keys scans m link
  have rests {next : MountNext} (ends : MountStep.Ends w.step next) (scans : w.step ≠ .walk) :=
    State.rests_of_ends work places hw keys scans ends fg
  have order := MountWork.stepOk_of_work keys hw
  have stays := State.opEnds_placesOk work places m link
  obtain ⟨step, scanned⟩ := w
  cases step <;> simp only [MountWork.stepOk, fg, Option.mem_some_iff, forall_eq'] at order <;>
    dsimp only [State.mountStruck]
  case regularise found => exact State.scanned_placesOk (scan nofun) order.1 (rests (.regularise found) nofun) _
  case retire =>
    split
    · exact (scan nofun).ended_placesOk order (rests .retire nofun) .reclaim
    · exact State.mountFallback_placesOk (scan nofun) (rests .retire nofun)
  case movedStrike next =>
    split
    · exact (scan nofun).ended_placesOk order (rests (.movedStrike next) nofun) .reclaim
    · exact State.mountFallback_placesOk (scan nofun) (rests (.movedStrike next) nofun)
  case fallbackMark g next =>
    have rests : MountNext.Rests s.pools.bad (State.scanPlaces s scanned) g next := by
      rw [← State.places_eq_scanPlaces work places hw keys nofun]
      obtain ⟨-, -, -, -, -, -, -, mounts⟩ := places
      exact MountWork.framesOk_fallbackMark_iff.mp (mounts _ hw).2
    split
    · exact (scan nofun).marked_placesOk order rests
    · exact (scan nofun).ended_placesOk order rests .quarantine
  all_goals exact stays

theorem State.mountErased_placesOk (verified : Bool) :
    State.placesOk (State.mountErased (State.opEnds s m link) w f verified) := by
  have scan (scans : w.step ≠ .walk) := State.opEnds_scanPlaced work places hw keys scans m link
  have rests {next : MountNext} (ends : MountStep.Ends w.step next) (scans : w.step ≠ .walk) :=
    State.rests_of_ends work places hw keys scans ends fg
  have order := MountWork.stepOk_of_work keys hw
  have stays := State.opEnds_placesOk work places m link
  obtain ⟨step, scanned⟩ := w
  cases step <;> simp only [MountWork.stepOk, fg, Option.mem_some_iff, forall_eq'] at order <;>
    dsimp only [State.mountErased]
  case fallbackErase next =>
    have rests := rests (.fallbackErase next) nofun
    split
    · exact (scan nofun).ended_placesOk order rests .free
    · exact State.markClaim_placesOk (scan nofun) rests _
  all_goals exact stays

end Reports

section AllReports

variable {s : State} (work : State.workOk s) (keys : State.keysOk s) (places : State.placesOk s) (m : Memory)
  (link : LinkPort) {f : Frame} (fg : Controller.foregroundFrame s.ctrl = some f)
include work keys places fg

theorem State.reportRead_placesOk (img : Image) : State.placesOk (State.reportRead (State.opEnds s m link) f img) := by
  unfold State.reportRead
  split
  · next w _ hw => exact State.mountRead_placesOk work keys places m link hw fg img
  · next off hj => exact State.engineRead_placesOk work keys places m link off hj fg img
  · exact State.opEnds_placesOk work places m link

theorem State.reportStrike_placesOk (verified : Bool) :
    State.placesOk (State.reportStrike (State.opEnds s m link) f verified) := by
  unfold State.reportStrike
  split
  · next w _ hw => exact State.mountStruck_placesOk work keys places m link hw fg verified
  · next off hj => exact State.engineStruck_placesOk work keys places m link off hj fg verified
  · exact State.opEnds_placesOk work places m link

theorem State.reportErase_placesOk (verified : Bool) :
    State.placesOk (State.reportErase (State.opEnds s m link) f verified) := by
  unfold State.reportErase
  split
  · next w _ hw => exact State.mountErased_placesOk work keys places m link hw fg verified
  · next off hj => exact State.engineErased_placesOk work keys places m link off hj fg verified
  · exact State.opEnds_placesOk work places m link

end AllReports

/-! ### The walk (R156) -/

/-- Frames moved from one place to another leave each of them one place. -/
theorem State.placesOk_of_count {s t : State} (places : State.placesOk s)
    (same : ∀ g, (State.places t).count g = (State.places s).count g) (part : t.part = s.part)
    (job : t.engine.job = s.engine.job) (held : t.engine.held = s.engine.held)
    (erases : ∀ f, Controller.Erases t.ctrl f → f ∈ t.pools.reclaim)
    (jobs : ∀ j ∈ s.engine.job, EngineStep.framesOk t j.step ∧
      (EngineStep.formats j.step = true → t.mount.work = none →
        t.pools.free = [] ∧ t.pools.reclaim = [] ∧ t.pools.quarantine = []))
    (mounts : ∀ w ∈ t.mount.work, w.step = .walk) (walks : t.mount.work ≠ none → State.allPlaced s) :
    State.placesOk t := by
  have perm : (State.places t).Perm (State.places s) := List.perm_iff_count.mpr same
  obtain ⟨nodup, grant, all, holds, -⟩ := places
  refine ⟨perm.nodup_iff.mpr nodup, fun f hf => grant f (perm.mem_iff.mp hf),
    fun ready g hg => perm.mem_iff.mpr (all (part ▸ ready) g hg), ?_,
    fun _ e since ho background => erases _ (.inl ⟨e, since, background ▸ ho, rfl⟩),
    fun e he => erases _ (.inr ⟨e, he, rfl⟩), job ▸ jobs, fun w hw => ⟨absurd (mounts w hw), ?_⟩⟩
  · simpa only [held, job] using holds
  · have placed := walks (by simp [Option.mem_def.mp hw])
    simp only [MountWork.framesOk, mounts w hw]
    exact fun g hg => perm.mem_iff.mpr (placed g hg)

/-- The walk goes on by one frame, or ends in READY with every frame in its place (R156). -/
theorem State.walkOn_placesOk {s : State} (work : State.workOk s) (places : State.placesOk s) {w : MountWork}
    (hw : s.mount.work = some w) (walk : w.step = .walk) : State.placesOk (State.walkOn s w) := by
  obtain ⟨held, jobs⟩ := State.held_none_of_mount work places hw
  have all : State.allPlaced s := by
    obtain ⟨-, -, -, -, -, -, -, mounts⟩ := places
    simpa only [MountWork.framesOk, walk] using (mounts w hw).2
  obtain ⟨step, scanned⟩ := w
  obtain rfl : step = .walk := walk
  have reclaims {f : Frame} := State.erases_of_placesOk places (f := f)
  cases scanned with
  | nil =>
    have ⟨nodup, grant, _⟩ := places
    obtain ⟨-, -, -, -, -, -, mount⟩ := work
    obtain ⟨-, idle⟩ := mount _ hw
    exact State.mountEnds_placesOk (idle rfl).1 held jobs (fun f => reclaims) (by simp [State.scannedFrames, hw]) nodup
      grant fun _ => all
  | cons q rest =>
    obtain ⟨f, place⟩ := q
    have goesOn {t : State} (ctrl : t.ctrl = s.ctrl) (engine : t.engine = s.engine) (part : t.part = s.part)
        (work : t.mount.work = some { step := .walk, scanned := rest }) (reclaim : s.pools.reclaim ⊆ t.pools.reclaim)
        (same : ∀ g, State.pooled t g = State.pooled s g + [f].count g) : State.placesOk t := by
      refine State.placesOk_of_count places (fun g => ?_) part (by rw [engine]) (by rw [engine])
        (fun g works => reclaim (reclaims (ctrl ▸ works))) (fun j hj => ?_) ?_ fun _ => all
      · rw [State.count_places_eq_pooled, State.count_places_eq_pooled, same]
        simp [State.scannedFrames, work, hw, List.count_cons]
        omega
      · obtain ⟨fm, hf⟩ := EngineStep.mounts_iff.mp (jobs j hj)
        simp [hf, EngineStep.framesOk, work]
      · simp [work]
    cases place with
    | free =>
      refine goesOn (t := State.setReport (State.setPools _ _) _) rfl rfl rfl rfl (fun _ => id) fun g => ?_
      simp [State.pooled, held, List.count_cons]
      omega
    | reclaim =>
      refine goesOn (t := State.setPools _ _) rfl rfl rfl rfl (fun _ => List.mem_append_left _) fun g => ?_
      simp [State.pooled, held, List.count_cons]
      omega
    | quarantine =>
      have ⟨nodup, _⟩ := places
      have apart : f ∉ s.pools.bad ∧ f ∉ s.pools.quarantine :=
        State.apart_of_nodup nodup (by simp [State.scannedFrames, hw])
      refine goesOn (t := State.setPools _ _) rfl rfl rfl rfl (fun _ => id) fun g => ?_
      have inserted := (perm_insertFrame apart.2).count_eq g
      simp [State.pooled, held, List.count_cons] at inserted ⊢
      omega
    | candidate c =>
      have inserts (e : Entry) (frame : e.frame = f) (g : Frame) :
          State.pooled (State.setIndex s (insertEntry e s.index)) g = State.pooled s g + [f].count g := by
        have inserted := ((perm_insertEntry e s.index).map fun e => e.frame).count_eq g
        simp [State.pooled, held, frame, List.count_cons] at inserted ⊢
        omega
      obtain ⟨frame, marker, key, gen, _ | ⟨cls, units⟩⟩ := c
      · exact goesOn (t := State.setReport (State.setIndex _ _) _) rfl rfl rfl rfl (fun _ => id) (inserts _ rfl)
      · exact goesOn (t := State.setIndex _ _) rfl rfl rfl rfl (fun _ => id) (inserts _ rfl)

end Sys2Proof.Machine
end

section
/-! Every frame stays in its one place (R123) over the events of the array controller. -/

namespace Sys2Proof.Machine

/-! ### The waiting claim and the operation that goes on -/

theorem State.mayGoOn_of_placesOk {s : State} (places : State.placesOk s) (off : s.mount.work = none)
    (calm : Controller.foregroundBusy s.ctrl = false) : State.MayGoOn s :=
  have ⟨nodup, grant, all, _⟩ := places
  ⟨off, calm, nodup, grant, all, fun _ => State.erases_of_placesOk places⟩

/-- The waiting claim is served in the foreground's frame; a demand claim goes on with its take (R114, R131). -/
theorem State.serveWaiting_placesOk {s : State} (places : State.placesOk s) (idle : s.ctrl.op = none)
    (mounts : ∀ w ∈ s.mount.work, ∀ j ∈ s.engine.job, EngineStep.mounts j.step = true) :
    State.placesOk (State.serveWaiting s) := by
  have frame := Controller.foregroundFrame_of_idle idle
  have served (f : Frame) : Controller.Erases { s.ctrl with waiting := none } f → Controller.Erases s.ctrl f := id
  unfold State.serveWaiting
  split
  · exact places
  · next waiting =>
    dsimp only
    split
    · next cmd w hj =>
      have off : s.mount.work = none := by
        by_contra hw
        obtain ⟨v, hv⟩ := Option.ne_none_iff_exists'.mp hw
        exact absurd (mounts v hv _ hj) (by simp [EngineStep.mounts])
      have calm := State.mayGoOn_of_placesOk places off (by simp [Controller.foregroundBusy, idle])
      have old := EngineStep.framesOk_of_job places hj
      have held := State.held_none_of_placesOk places (by simp [show s.engine.job = _ from hj, EngineStep.holds])
      exact State.take_placesOk (s := { s with ctrl := { s.ctrl with waiting := none } })
        ⟨off, calm.calm, calm.nodup, calm.grant, calm.all, calm.erases⟩ cmd old held
    · refine State.placesOk_of_eq places rfl rfl rfl rfl rfl rfl (fun f hf => ?_) id served
      rw [Controller.foregroundFrame_of_idle (by exact idle)] at hf
      exact absurd hf (by simp)
  · next k _ waiting =>
    refine State.placesOk_of_eq places rfl rfl rfl rfl rfl rfl (fun f hf => ?_) (fun demand => ?_)
      fun f works => served f (Controller.erases_of_claim works)
    · rw [State.claim_ctrl, Controller.foregroundFrame_claim (by exact idle)] at hf
      rwa [frame, waiting]
    · exact Controller.Unreclaiming.claim (c := { s.ctrl with waiting := none }) demand
        (by simp [Controller.foregroundBusy, idle]) k

/-- The operation goes on, or another of its claimant on the same frame takes its place. -/
theorem State.setOp_placesOk {s : State} (places : State.placesOk s) {op next : Op} (h : s.ctrl.op = some op)
    (claimant : Op.isBackground next = Op.isBackground op)
    (frame : Op.isBackground op = false → Op.frame next = Op.frame op)
    (erases : ∀ e since, next = .erase .background e since → Controller.Erases s.ctrl e.frame) :
    State.placesOk (State.setOp s next) := by
  refine State.placesOk_of_eq places rfl rfl rfl rfl rfl rfl (fun f hf => ?_) (fun demand => ⟨demand.1, ?_⟩)
    fun f works => ?_
  · rw [State.setOp_ctrl] at hf
    cases background : Op.isBackground op with
    | true =>
      rw [Controller.foregroundFrame_of_background h background]
      rwa [Controller.foregroundFrame_of_background rfl (claimant.trans background)] at hf
    | false =>
      rw [Controller.foregroundFrame_of_foreground h background]
      rwa [Controller.foregroundFrame_of_foreground rfl (claimant.trans background), frame background] at hf
  · have quiet := demand.2
    simp only [Controller.backgroundBusy, h] at quiet
    simpa only [Controller.backgroundBusy, State.setOp_ctrl, claimant] using quiet
  · obtain ⟨e, since, ho, rfl⟩ | suspended := works
    · exact erases e since (Option.some.inj ho)
    · exact .inr suspended

/-! ### Background reclaim's work ends -/

section Events

variable {s : State} (work : State.workOk s) (places : State.placesOk s)
include work places

/-- A frame of the reclaim queue that background reclaim is done with moves on. Nothing that the work in progress rests on moves
with it: a demand erase waits for background reclaim (R131), FORMAT and a mount's scan leave the queue empty (R146, R159). -/
theorem State.backgroundMoved_placesOk (busy : Controller.backgroundBusy s.ctrl = true) (m : Memory) (link : LinkPort)
    {pools : FramePools} {f : Frame} (head : f ∈ s.pools.reclaim) (quarantine : s.pools.quarantine ⊆ pools.quarantine)
    (same : ∀ g, State.pooled (State.setPools s pools) g = State.pooled s g) :
    State.placesOk (State.setPools (State.opEnds s m link) pools) := by
  obtain ⟨-, -, waits, alone, -, -, mounting⟩ := work
  have fg {f : Frame} (hf : f ∈ Controller.foregroundFrame { s.ctrl with op := none }) :
      f ∈ Controller.foregroundFrame s.ctrl :=
    Controller.foregroundFrame_of_ended (c := s.ctrl) (d := { s.ctrl with op := none }) rfl rfl waits hf
  have ⟨_, _, _, _, _, _, jobs, mounts⟩ := places
  have walk : ∀ w ∈ s.mount.work, w.step = .walk := fun w hw => by
    by_contra scans
    obtain ⟨-, reclaim, -⟩ := (mounts w hw).1 scans
    simp [reclaim] at head
  refine State.placesOk_of_count places (fun g => ?_) rfl rfl rfl (fun g works => ?_) (fun j hj => ?_) walk fun walks => ?_
  · rw [State.count_places_eq_pooled, State.count_places_eq_pooled, ← same]
    rfl
  · have unreclaiming : Controller.Unreclaiming { s.ctrl with op := none } := ⟨alone busy, rfl⟩
    exact absurd works (unreclaiming.not_erases g)
  · obtain ⟨rests, unused⟩ := jobs j hj
    cases formats : EngineStep.formats j.step with
    | true =>
      have mounted : s.mount.work ≠ none := fun off => by
        obtain ⟨-, reclaim, -⟩ := unused formats off
        simp [reclaim] at head
      obtain ⟨w, hw⟩ := Option.ne_none_iff_exists'.mp mounted
      obtain ⟨g, hg⟩ := EngineStep.mounts_iff.mp ((mounting w hw).1 j hj)
      exact ⟨by simp [hg, EngineStep.framesOk], fun _ off => absurd off mounted⟩
    | false =>
      refine ⟨?_, nofun⟩
      cases hs : j.step <;> rw [hs] at rests formats <;>
        simp only [EngineStep.framesOk, State.boundAt, Writing.oldBound] at rests ⊢
      case takeErase | takeMark => simp [busy] at rests
      case formatErase | formatMark => cases formats
      case purgeStrike => exact fun f hf => ⟨(rests f (fg hf)).1, fun g hg => quarantine ((rests f (fg hf)).2 g hg)⟩
      all_goals simp_all
  · obtain ⟨w, hw⟩ := Option.ne_none_iff_exists'.mp walks
    simpa only [MountWork.framesOk, walk w hw] using (mounts w hw).2

end Events

end Sys2Proof.Machine
end

section
/-! Every frame stays in its one place (R123) over the events of the array controller: the ends of its operations, the stages
of an ERASE, and background reclaim. -/

namespace Sys2Proof.Machine

theorem FramePools.quarantine_subset_afterMark (p : FramePools) (f : Frame) (verified : Bool) :
    p.quarantine ⊆ (FramePools.afterMark p f verified).quarantine := by
  cases verified with
  | true => exact fun _ => id
  | false => exact fun _ hg => mem_insertFrame.mpr (.inr hg)

theorem Controller.backgroundBusy_of_op {c : Controller} {op : Op} (h : c.op = some op) :
    Controller.backgroundBusy c = Op.isBackground op := by
  simp only [Controller.backgroundBusy, h]

section Events

variable {s : State} (work : State.workOk s) (places : State.placesOk s)
include work places

omit places in
theorem State.OpEnded.serveWaiting_placesOk {t : State} (ended : State.OpEnded s t) (placed : State.placesOk t) :
    State.placesOk (State.serveWaiting t) :=
  State.serveWaiting_placesOk placed ended.idle (State.OpEnded.mounts work ended)

/-! ### Operations end -/

/-- Background reclaim's mark strike ends: the head of the reclaim queue is bad, or in quarantine (R134, R135). -/
theorem State.backgroundMarked_placesOk (busy : Controller.backgroundBusy s.ctrl = true) (m : Memory) (link : LinkPort)
    (verified : Bool) : State.placesOk (State.backgroundMarked (State.opEnds s m link) verified) := by
  unfold State.backgroundMarked
  split
  · exact State.OpEnded.serveWaiting_placesOk work (State.opEnds_opEnded s m link)
      (State.opEnds_placesOk work places m link)
  · next f rest pool =>
    have pool : s.pools.reclaim = f :: rest := pool
    have head : f ∈ s.pools.reclaim := by simp [pool]
    have ⟨nodup, _⟩ := places
    have apart := State.apart_of_nodup nodup (f := f) (by simp [head])
    have quarantine := FramePools.quarantine_subset_afterMark { s.pools with reclaim := rest } f verified
    have moved := State.backgroundMoved_placesOk work places busy m link head quarantine fun g => by
      have marked := FramePools.count_afterMark (p := { s.pools with reclaim := rest }) apart verified g
      simp [State.pooled, pool, List.count_cons] at marked ⊢
      omega
    exact State.OpEnded.serveWaiting_placesOk (s := s) work ⟨rfl, rfl, rfl, rfl, rfl⟩ moved

/-- A background ERASE verified blank frees its frame (R119). -/
theorem State.backgroundErased_placesOk {e : Erase} {since : Nat} (ho : s.ctrl.op = some (.erase .background e since)) :
    State.placesOk (State.eraseVerified s .background e.frame) := by
  have head : e.frame ∈ s.pools.reclaim := State.erases_of_placesOk places (.inl ⟨e, since, ho, rfl⟩)
  have ⟨nodup, _⟩ := places
  have moved := State.backgroundMoved_placesOk (pools := { s.pools with
      reclaim := removeFrame e.frame s.pools.reclaim
      free := s.pools.free ++ [e.frame] }) work places (Controller.backgroundBusy_of_op ho) s.array s.link head
    (fun _ => id) fun g => by
      have removed := (perm_removeFrame head (State.pools_nodup nodup).1).count_eq g
      simp [State.pooled, List.count_cons] at removed ⊢
      omega
  exact State.OpEnded.serveWaiting_placesOk (s := s) work ⟨rfl, rfl, rfl, rfl, rfl⟩ moved

/-- The background ERASE in progress is suspended with what it has reached (R115, R116). -/
theorem State.suspended_placesOk {e : Erase} {since : Nat} (ho : s.ctrl.op = some (.erase .background e since)) (m : Memory)
    {stopped : Erase} (frame : stopped.frame = e.frame) :
    State.placesOk
      (State.serveWaiting { s with array := m, ctrl := { s.ctrl with op := none, suspended := some stopped } }) := by
  have ⟨_, _, waits, _⟩ := work
  refine State.OpEnded.serveWaiting_placesOk (s := s) work ⟨rfl, rfl, rfl, rfl, rfl⟩
    (State.placesOk_of_eq places rfl rfl rfl rfl rfl rfl (fun f hf => ?_) (fun demand => ?_) fun f works => ?_)
  · exact Controller.foregroundFrame_of_ended (c := s.ctrl)
      (d := { s.ctrl with op := none, suspended := some stopped }) rfl rfl waits hf
  · exact absurd (.inl ⟨e, since, ho, rfl⟩) (demand.not_erases e.frame)
  · refine .inl ⟨e, since, ho, ?_⟩
    obtain ⟨_, _, going, -⟩ | ⟨_, ⟨rfl⟩, rfl⟩ := works
    · cases going
    · exact frame.symm

variable (keys : State.keysOk s)
include keys

theorem State.readComplete_placesOk : State.placesOk (State.readComplete s) := by
  unfold State.readComplete
  split
  · next f ho =>
    exact State.reportRead_placesOk work keys places s.array s.link (Controller.foregroundFrame_of_foreground ho rfl) _
  · exact places

theorem State.strikeComplete_placesOk (stuck : FrameBits) : State.placesOk (State.strikeComplete s stuck) := by
  unfold State.strikeComplete
  split
  · next f claimant what ho =>
    dsimp only
    rw [State.systemFailure_eq]
    cases claimant with
    | foreground =>
      exact State.reportStrike_placesOk work keys places _ _ (Controller.foregroundFrame_of_foreground ho rfl) _
    | background => exact State.backgroundMarked_placesOk work places (Controller.backgroundBusy_of_op ho) _ _ _
  · exact places

/-! ### The stages of an ERASE -/

theorem State.eraseVerified_placesOk {claimant : Claimant} {e : Erase} {since : Nat}
    (ho : s.ctrl.op = some (.erase claimant e since)) : State.placesOk (State.eraseVerified s claimant e.frame) := by
  cases claimant with
  | foreground =>
    exact State.reportErase_placesOk work keys places s.array s.link (Controller.foregroundFrame_of_foreground ho rfl) true
  | background => exact State.backgroundErased_placesOk work places ho

omit work places keys in
/-- An ERASE goes on as an ERASE of the same frame by the same claimant. -/
theorem State.setErase_placesOk {s : State} (places : State.placesOk s) {claimant : Claimant} {e : Erase} {since : Nat}
    (ho : s.ctrl.op = some (.erase claimant e since)) {next : Erase} (frame : next.frame = e.frame) (since' : Nat) :
    State.placesOk (State.setOp s (.erase claimant next since')) := by
  refine State.setOp_placesOk places ho rfl (fun _ => frame) ?_
  rintro _ _ ⟨rfl⟩
  exact .inl ⟨e, since, ho, frame.symm⟩

theorem State.attemptFailed_placesOk {claimant : Claimant} {e : Erase} {since : Nat}
    (ho : s.ctrl.op = some (.erase claimant e since)) : State.placesOk (State.attemptFailed s claimant e) := by
  unfold State.attemptFailed
  split
  · cases claimant with
    | foreground =>
      unfold State.eraseFailed
      dsimp only
      rw [State.systemFailure_eq]
      exact State.reportErase_placesOk work keys places s.array _ (Controller.foregroundFrame_of_foreground ho rfl) false
    | background => exact State.setOp_placesOk places ho rfl nofun nofun
  · split
    · exact State.suspended_placesOk work places ho s.array rfl
    · exact State.setErase_placesOk places ho (by rfl) 0

omit work keys in
theorem State.eraseGoesOn_placesOk {claimant : Claimant} {e : Erase} {since : Nat}
    (ho : s.ctrl.op = some (.erase claimant e since)) (m : Memory) (stage : Stage) (elapsed : Nat) :
    State.placesOk (State.eraseGoesOn s m claimant e since stage elapsed) :=
  State.setErase_placesOk (s := State.setArray s m) places ho (by rfl) _

theorem State.markerRetirement_placesOk (elapsed : Nat) (stuck : FrameBits) :
    State.placesOk (State.markerRetirement s elapsed stuck) := by
  unfold State.markerRetirement
  split
  · next claimant e since ho =>
    split
    · dsimp only
      split
      · exact State.eraseGoesOn_placesOk places ho _ _ _
      · exact State.attemptFailed_placesOk (s := State.setArray s (Memory.retireMarker s.array e.frame stuck)) work places
          keys ho
    · exact places
  · exact places

omit work keys in
theorem State.stageComplete_placesOk (stage next : Stage) (elapsed : Nat) (stuck : FrameBits) :
    State.placesOk (State.stageComplete s stage next elapsed stuck) := by
  unfold State.stageComplete
  split
  · next claimant e since ho =>
    split
    · exact State.eraseGoesOn_placesOk places ho _ _ _
    · exact places
  · exact places

theorem State.blankVerify_placesOk : State.placesOk (State.blankVerify s) := by
  unfold State.blankVerify
  split
  · next claimant e since ho =>
    split
    · split
      · exact State.eraseVerified_placesOk work places keys ho
      · exact State.attemptFailed_placesOk work places keys ho
    · exact places
  · exact places

/-! ### Background reclaim -/

omit work keys in
theorem State.quantum_placesOk : State.placesOk (State.quantum s) := by
  unfold State.quantum
  split
  · next ho =>
    split
    · exact State.setErase_placesOk places ho (by rfl) _
    · exact places
  · exact places

omit keys in
theorem State.suspension_placesOk (elapsed : Nat) (undone : FrameBits) :
    State.placesOk (State.suspension s elapsed undone) := by
  unfold State.suspension
  split
  · next e since k ho hk =>
    split
    · exact State.suspended_placesOk work places ho _ rfl
    · exact places
  · exact places

omit keys in
/-- With the foreground quiet background reclaim takes up a frame of the reclaim queue (R117). -/
theorem State.quiet_placesOk (quiet : State.quiet s = true) {ctrl : Controller}
    (calm : Controller.foregroundBusy ctrl = false) (erases : ∀ f, Controller.Erases ctrl f → f ∈ s.pools.reclaim) :
    State.placesOk { s with ctrl := ctrl } := by
  have off := State.work_none_of_quiet work quiet
  simp only [State.quiet, Bool.and_eq_true, decide_eq_true_eq, Option.isNone_iff_eq_none] at quiet
  obtain ⟨⟨-, job⟩, -⟩ := quiet
  have held : s.engine.held = none := State.held_none_of_placesOk places (by simp [job])
  obtain ⟨nodup, grant, all, -⟩ := places
  have goesOn : State.MayGoOn { s with ctrl := ctrl } := ⟨off, calm, nodup, grant, all, erases⟩
  exact goesOn.placesOk_of_no_job job held

omit keys in
theorem State.backgroundStart_placesOk : State.placesOk (State.backgroundStart s) := by
  unfold State.backgroundStart
  split
  · next f rest idle unsuspended pool =>
    split
    · next quiet =>
      refine State.quiet_placesOk work places quiet rfl fun g works => ?_
      obtain ⟨_, _, ⟨rfl⟩, rfl⟩ | ⟨_, suspended, -⟩ := works
      · simp [pool, Erase.start]
      · simp [unsuspended] at suspended
    · exact places
  · exact places

omit keys in
theorem State.backgroundResume_placesOk : State.placesOk (State.backgroundResume s) := by
  unfold State.backgroundResume
  split
  · next e idle suspended =>
    split
    · next quiet =>
      refine State.quiet_placesOk work places quiet rfl fun g works => ?_
      obtain ⟨_, _, ⟨rfl⟩, rfl⟩ | ⟨_, gone, -⟩ := works
      · exact State.erases_of_placesOk places (.inr ⟨e, suspended, rfl⟩)
      · cases gone
    · exact places
  · exact places

end Events

end Sys2Proof.Machine
end

section
/-! Every frame stays in its one place (R123) over the dispatches. -/

namespace Sys2Proof.Machine

/-- A dispatch is made outside a mount with no command in progress; what its first step keeps of the places, it keeps (R143,
R170). -/
theorem State.dispatch_placesOk {s : State} (work : State.workOk s) (places : State.placesOk s) (code : Byte)
    {run : State → Command → State}
    (h : ∀ t cmd, State.MayGoOn t → t.engine.held = none → State.placesOk (run t cmd)) :
    State.placesOk (State.dispatch s code run) := by
  unfold State.dispatch
  split
  · exact places
  · next cmd head =>
    obtain ⟨job, -, admits, -, -⟩ := State.dispatchHead_eq_some.mp head
    obtain ⟨mount, -, -, -, idle, -, -⟩ := work
    have off : s.mount.work = none := State.work_none_of_part mount (State.part_of_admits admits)
    have held : s.engine.held = none := State.held_none_of_placesOk places (by simp [job])
    have goesOn : State.MayGoOn s := State.mayGoOn_of_placesOk places off (idle job off).1
    exact h _ cmd ⟨goesOn.work, goesOn.calm, goesOn.nodup, goesOn.grant, goesOn.all, goesOn.erases⟩ held

/-! ### Abandoned background work (R121) -/

theorem State.abandon_unreclaiming (s : State) (undone : FrameBits) :
    Controller.Unreclaiming (State.abandon s undone).ctrl := by
  unfold State.abandon
  split
  · next idle => exact ⟨rfl, by simp [Controller.backgroundBusy, idle]⟩
  · next op going =>
    split
    · exact ⟨rfl, rfl⟩
    · next foreground => exact ⟨rfl, by simpa [Controller.backgroundBusy, going] using foreground⟩

theorem State.abandon_calm {s : State} (calm : Controller.foregroundBusy s.ctrl = false) (undone : FrameBits) :
    Controller.foregroundBusy (State.abandon s undone).ctrl = false := by
  unfold State.abandon
  split
  · next idle => simp [Controller.foregroundBusy, idle]
  · next op going =>
    split
    · rfl
    · exact calm

section Runs

variable {s : State} (h : State.MayGoOn s) (held : s.engine.held = none) (cmd : Command)
include h held

theorem State.runIssue_placesOk : State.placesOk (State.runIssue s cmd) := by
  unfold State.runIssue
  dsimp only
  split
  · exact h.post_placesOk held cmd _
  · split
    · exact h.post_placesOk held cmd _
    · exact h.post_placesOk held cmd _
    · split
      · exact h.post_placesOk held cmd _
      · split
        · exact h.post_placesOk held cmd _
        · exact State.take_placesOk h cmd nofun held

/-- The frame of the entry found is read (R36, R46, R74, R77, R83). -/
theorem State.readEntry_placesOk {e : Entry} (found : findEntry s.index cmd.key = some e) {step : EngineStep}
    (plain : EngineStep.formats step = false)
    (rests : (∀ f ∈ Controller.foregroundFrame (State.readEntry s cmd e step).ctrl, State.boundAt s e.key f) →
      EngineStep.framesOk (State.readEntry s cmd e step) step) :
    State.placesOk (State.readEntry s cmd e step) :=
  have bound : State.boundAt s e.key e.frame := ⟨e, (findEntry_eq_some found).1, rfl, rfl⟩
  h.claimStep_placesOk (.inl held) (.inl plain) cmd _ (rests (h.forall_frame (k := .read e.frame) rfl bound cmd step))

theorem State.runLookup_placesOk : State.placesOk (State.runLookup s cmd) := by
  unfold State.runLookup
  split
  · exact h.post_placesOk held cmd _
  · next found =>
    split
    · exact h.post_placesOk held cmd _
    · exact State.readEntry_placesOk h held cmd found rfl id

theorem State.runDraw_placesOk : State.placesOk (State.runDraw s cmd) := by
  unfold State.runDraw
  split
  · exact h.post_placesOk held cmd _
  · split
    · exact h.post_placesOk held cmd _
    · next found =>
      split
      · exact h.post_placesOk held cmd _
      · exact State.readEntry_placesOk h held cmd found rfl id

theorem State.runTopup_placesOk : State.placesOk (State.runTopup s cmd) := by
  unfold State.runTopup
  split
  · exact h.post_placesOk held cmd _
  · split
    · exact h.post_placesOk held cmd _
    · next found =>
      split
      · exact h.post_placesOk held cmd _
      · exact State.readEntry_placesOk h held cmd found rfl id

theorem State.runMove_placesOk : State.placesOk (State.runMove s cmd) := by
  unfold State.runMove
  split
  · exact h.post_placesOk held cmd _
  · next found =>
    split
    · exact h.post_placesOk held cmd _
    · exact State.readEntry_placesOk h held cmd found rfl id

theorem State.runRevoke_placesOk : State.placesOk (State.runRevoke s cmd) := by
  unfold State.runRevoke
  split
  · exact h.post_placesOk held cmd _
  · next found => exact State.readEntry_placesOk h held cmd found rfl id

theorem State.runConfigureClass_placesOk : State.placesOk (State.runConfigureClass s cmd) := by
  unfold State.runConfigureClass
  dsimp only
  split
  · exact h.post_placesOk held cmd _
  · split
    · exact h.claimStep_placesOk (.inl held) (.inl rfl) cmd _ trivial
    · exact h.post_placesOk held cmd _
    · exact h.post_placesOk held cmd _

theorem State.runPurgeOrphans_placesOk : State.placesOk (State.runPurgeOrphans s cmd) :=
  State.purgeNext_placesOk h held cmd (State.pools_nodup h.nodup).2.1 (fun _ => id) 0 0

omit cmd in
/-- FORMAT leaves no frame a place but the bad ones, and abandons background work (R121, R159). -/
theorem State.enterFormatting_mayGoOn (undone : FrameBits) : State.MayGoOn (State.enterFormatting s undone) := by
  have unreclaiming := State.abandon_unreclaiming s undone
  have calm := State.abandon_calm h.calm undone
  have bad := State.bad_subset_places s
  rw [State.enterFormatting, State.abandon_eq]
  refine ⟨h.work, calm, ?_, ?_, nofun, fun f works => absurd works (unreclaiming.not_erases f)⟩
  · simpa [State.places, State.scannedFrames, h.work, held] using (State.pools_nodup h.nodup).2.2
  · simpa [State.places, State.scannedFrames, h.work, held] using fun f hf => h.grant f (bad hf)

theorem State.runFormat_placesOk (undone : FrameBits) : State.placesOk (State.runFormat undone s cmd) := by
  have goesOn := State.enterFormatting_mayGoOn h held undone
  have held : (State.enterFormatting s undone).engine.held = none := by
    rw [State.enterFormatting, State.abandon_eq]
    exact held
  unfold State.runFormat
  dsimp only
  split
  · refine goesOn.claimStep_placesOk (.inl held) (.inr ⟨rfl, rfl, rfl⟩) cmd _ ?_
    exact goesOn.forall_frame (k := .erase 0) rfl (fun grant => absurd grant (by decide)) cmd _
  · exact goesOn.claimStep_placesOk (.inl held) (.inr ⟨rfl, rfl, rfl⟩) cmd _ trivial

end Runs

end Sys2Proof.Machine
end

section
/-! Every frame stays in its one place (R123) over every step. -/

namespace Sys2Proof.Machine

/-! ### Resets and RESTART -/

/-- The part cleared by a reset knows no frame (R192). -/
theorem State.heldInReset_placesOk (s : State) (undone : FrameBits) (pins : Pins) :
    State.placesOk (State.heldInReset s undone pins) := by
  simp [State.placesOk, State.places, State.scannedFrames, State.heldInReset, State.cleared, State.reset, Controller.idle]

theorem Controller.unreclaiming_idle : Controller.Unreclaiming Controller.idle := ⟨rfl, rfl⟩

theorem State.powerOn_placesOk (s : State) (undone : FrameBits) : State.placesOk (State.powerOn s undone) := by
  unfold State.powerOn
  refine State.beginMount_placesOk ?_ ?_ ?_ ?_ ?_ ?_ Controller.unreclaiming_idle.not_erases <;>
    simp [State.heldInReset, State.cleared, State.reset]

theorem State.resetnAssertion_placesOk {s : State} (places : State.placesOk s) (undone : FrameBits) :
    State.placesOk (State.resetnAssertion s undone) := by
  unfold State.resetnAssertion
  split
  · exact State.heldInReset_placesOk s undone _
  · exact places

theorem State.powerLoss_placesOk {s : State} (places : State.placesOk s) (undone : FrameBits) :
    State.placesOk (State.powerLoss s undone) := by
  unfold State.powerLoss
  split
  · exact State.heldInReset_placesOk s undone _
  · exact places

/-- While RESETN is low no frame but a bad one has a place, so the mount at its release begins with none (R192, R193). -/
theorem State.resetnRelease_placesOk {s : State} (closed : State.closedOk s) (places : State.placesOk s) :
    State.placesOk (State.resetnRelease s) := by
  unfold State.resetnRelease
  split
  · next low =>
    obtain ⟨-, -, job, held, -, ctrl, empty, unused⟩ := closed (by simp_all [State.portOpen])
    have bad := State.bad_subset_places s
    obtain ⟨nodup, grant, -⟩ := places
    refine State.beginMount_placesOk unused empty held (State.pools_nodup nodup).2.2 (fun f hf => grant f (bad hf))
      (by simp [job]) ?_
    rw [ctrl]
    exact Controller.unreclaiming_idle.not_erases
  · exact places

/-- The foreground's frame is the same once background work is abandoned (R121). -/
theorem State.foregroundFrame_abandon {s : State} (waits : s.ctrl.waiting ≠ none → Controller.backgroundBusy s.ctrl = true)
    (undone : FrameBits) {f : Frame} (h : f ∈ Controller.foregroundFrame (State.abandon s undone).ctrl) :
    f ∈ Controller.foregroundFrame s.ctrl := by
  unfold State.abandon at h
  split at h
  · exact h
  · split at h
    · exact Controller.foregroundFrame_of_ended (c := s.ctrl) (d := { s.ctrl with op := none, suspended := none }) rfl rfl
        waits h
    · exact h

theorem State.takeRestart_placesOk {s : State} (work : State.workOk s) (places : State.placesOk s)
    (off : s.mount.work = none) (undone : FrameBits) : State.placesOk (State.takeRestart s undone) := by
  obtain ⟨-, -, waits, -⟩ := work
  unfold State.takeRestart
  dsimp only
  split
  · exact State.clearForRestart_placesOk _
  · generalize hs : { s with intake := _ } = t
    have placesT : State.placesOk t := hs ▸ places
    have waitsT : t.ctrl.waiting ≠ none → Controller.backgroundBusy t.ctrl = true := hs ▸ waits
    have offT : t.mount.work = none := hs ▸ off
    have unreclaiming := State.abandon_unreclaiming t undone
    have fg {f : Frame} := State.foregroundFrame_abandon waitsT undone (f := f)
    have abandoned : State.placesOk (State.abandon t undone) ∧ (State.abandon t undone).mount.work = none := by
      rw [State.abandon_eq]
      exact ⟨State.placesOk_of_eq placesT rfl rfl rfl rfl rfl rfl (fun f => fg) (fun _ => unreclaiming)
        fun f works => absurd works (unreclaiming.not_erases f), offT⟩
    obtain ⟨placed, mount⟩ := abandoned
    unfold State.serveIfFree
    split
    · next idle => exact State.serveWaiting_placesOk placed idle (by simp [mount])
    · exact placed

theorem State.restart_placesOk {s : State} (work : State.workOk s) (places : State.placesOk s) (undone : FrameBits) :
    State.placesOk (State.restart s undone).1 := by
  unfold State.restart
  split
  · exact places
  · next refused =>
    simp only [Bool.or_eq_true, decide_eq_true_eq, not_or] at refused
    exact State.takeRestart_placesOk work places (State.work_none_of_part work.1 refused.2) undone

theorem State.immediate_placesOk {s : State} (places : State.placesOk s) (code : Byte) {act : Byte → State × List Byte}
    (h : ∀ captured, State.placesOk (act captured).1) : State.placesOk (State.immediate s code act) := by
  unfold State.immediate
  split
  · exact State.placesOk_of_eq (h _) rfl rfl rfl rfl rfl rfl (fun _ => id) id fun _ => id
  · exact places

/-! ### Every step -/

theorem State.tick_placesOk {s : State} (work : State.workOk s) (places : State.placesOk s) :
    State.placesOk (State.tick s) := by
  unfold State.tick
  split
  · next w hw =>
    split
    · next walk => exact State.walkOn_placesOk work places hw walk
    · exact places
  · exact places

/-- Whatever command or event is taken, every frame stays in its one place. -/
theorem exec_placesOk {c : Instr} {s t : State} (work : State.workOk s) (keys : State.keysOk s) (places : State.placesOk s)
    (h : exec c s = .next t) : State.placesOk t := by
  have ⟨_, closed, _⟩ := work
  have dispatched (code : Byte) {run : State → Command → State} :=
    State.dispatch_placesOk work places code (run := run)
  cases c with
  | powerOn cut => cases h; exact State.powerOn_placesOk s cut
  | resetnAssertion cut => cases h; exact State.resetnAssertion_placesOk places cut
  | resetnRelease => cases h; exact State.resetnRelease_placesOk closed places
  | restart cut => cases h; exact State.immediate_placesOk places _ fun _ => State.restart_placesOk work places cut
  | issue => cases h; exact dispatched _ fun _ cmd goesOn held => State.runIssue_placesOk goesOn held cmd
  | lookup => cases h; exact dispatched _ fun _ cmd goesOn held => State.runLookup_placesOk goesOn held cmd
  | draw => cases h; exact dispatched _ fun _ cmd goesOn held => State.runDraw_placesOk goesOn held cmd
  | topup => cases h; exact dispatched _ fun _ cmd goesOn held => State.runTopup_placesOk goesOn held cmd
  | move => cases h; exact dispatched _ fun _ cmd goesOn held => State.runMove_placesOk goesOn held cmd
  | revoke => cases h; exact dispatched _ fun _ cmd goesOn held => State.runRevoke_placesOk goesOn held cmd
  | list => cases h; exact dispatched _ fun _ cmd goesOn held => goesOn.post_placesOk held cmd _
  | configureClass =>
    cases h; exact dispatched _ fun _ cmd goesOn held => State.runConfigureClass_placesOk goesOn held cmd
  | purgeOrphans => cases h; exact dispatched _ fun _ cmd goesOn held => State.runPurgeOrphans_placesOk goesOn held cmd
  | format cut => cases h; exact dispatched _ fun _ cmd goesOn held => State.runFormat_placesOk goesOn held cmd cut
  | readComplete => cases h; exact State.readComplete_placesOk work places keys
  | strikeComplete stuck => cases h; exact State.strikeComplete_placesOk work places keys stuck
  | markerRetirement elapsed stuck => cases h; exact State.markerRetirement_placesOk work places keys elapsed stuck
  | bodyErase elapsed stuck => cases h; exact State.stageComplete_placesOk places _ _ elapsed stuck
  | markerErase elapsed stuck => cases h; exact State.stageComplete_placesOk places _ _ elapsed stuck
  | systemFrameErase elapsed stuck => cases h; exact State.stageComplete_placesOk places _ _ elapsed stuck
  | blankVerify => cases h; exact State.blankVerify_placesOk work places keys
  | quantum => cases h; exact State.quantum_placesOk places
  | suspension elapsed undone => cases h; exact State.suspension_placesOk work places elapsed undone
  | backgroundStart => cases h; exact State.backgroundStart_placesOk work places
  | backgroundResume => cases h; exact State.backgroundResume_placesOk work places
  | powerLoss cut => cases h; exact State.powerLoss_placesOk places cut
  | _ => exact (exec_linkPortOnly rfl h).placesOk places

/-- Settles O55: every command and event keeps each frame in its one place, and so does the walk of a mount. -/
theorem framesInOnePlaceKept : Obligations.FramesInOnePlaceKept := by
  intro s t work keys places h
  have placed : State.placesOk t := by
    unfold step at h
    split at h
    · cases h
      exact State.tick_placesOk work places
    · next c rest _ => exact exec_placesOk (s := { s with pending := rest }) work keys places h
  have ⟨nodup, _, all, _⟩ := placed
  exact ⟨placed, nodup, all⟩

end Sys2Proof.Machine
end

section
/-! What the command in progress and a mount go on to (R108, R114, R142), seen in what the coherence of the work in progress
rests on: the part state, the command, the mount and the controller. -/

namespace Sys2Proof.Machine

/-! ### The work in progress -/

/-- Whether the part takes transactions, the part state, a pending RESTART, the command, the mount and the controller. -/
structure WorkView where
  isOpen : Bool
  part : PartState
  restartPending : Bool
  job : Option Job
  mount : Option MountWork
  ctrl : Controller

/-- What `State.workOk` says of a part that takes transactions rests on these alone (`State.workOk_iff_of_open`). -/
def State.view (s : State) : WorkView where
  isOpen := State.portOpen s
  part := s.part
  restartPending := s.intake.restartPending
  job := s.engine.job
  mount := s.mount.work
  ctrl := s.ctrl

namespace WorkView

/-- The coherence of the work in progress in a part that takes transactions (`State.workOk`). -/
structure Ok (v : WorkView) : Prop where
  mounting : v.mount.isSome = true → v.part = .mounting
  waits : v.ctrl.waiting ≠ none → Controller.backgroundBusy v.ctrl = true
  suspends : Controller.backgroundBusy v.ctrl = true → v.ctrl.suspended = none
  idle : v.job = none → v.mount = none → Controller.foregroundIdle v.ctrl
  formats : ∀ j ∈ v.job, EngineStep.formats j.step = true → v.part ≠ .ready
  mounts : ∀ w ∈ v.mount,
    (∀ j ∈ v.job, EngineStep.mounts j.step = true) ∧ (w.step = .walk → Controller.foregroundIdle v.ctrl)

/-- The work of a part whose mount has just begun, with no command in progress (R146, R179). -/
def begun (isOpen : Bool) : WorkView where
  isOpen := isOpen
  part := .mounting
  restartPending := false
  job := none
  mount := some { step := .readFormat, scanned := [] }
  ctrl := { op := some (.read 0), suspended := none, waiting := none }

theorem begun_ok (isOpen : Bool) : Ok (begun isOpen) where
  mounting := by simp [begun]
  waits := by simp [begun]
  suspends := by simp [begun]
  idle := by simp [begun]
  formats := by simp [begun]
  mounts := by simp [begun]

end WorkView

theorem State.workOk_iff_of_open {s : State} (isOpen : State.portOpen s = true) :
    State.workOk s ↔ WorkView.Ok (State.view s) := by
  constructor
  · rintro ⟨mount, -, waits, suspends, idle, formats, mounts⟩
    exact ⟨mount, waits, suspends, idle, formats, mounts⟩
  · rintro ⟨mount, waits, suspends, idle, formats, mounts⟩
    exact ⟨mount, fun closed => by simp [isOpen] at closed, waits, suspends, idle, formats, mounts⟩

theorem State.view_ok {s : State} (work : State.workOk s) : WorkView.Ok (State.view s) := by
  obtain ⟨mount, -, waits, suspends, idle, formats, mounts⟩ := work
  exact ⟨mount, waits, suspends, idle, formats, mounts⟩

theorem State.view_clearForRestart (s : State) : State.view (State.clearForRestart s) = WorkView.begun (State.portOpen s) := rfl

/-! ### The command in progress goes on -/

/-- The controller under a command that goes on: as it stood, with a claim (R114), or with the background erase in the
foreground (R118, R131). -/
inductive Controller.GoesOn (c : Controller) : Controller → Prop
  | stays : Controller.GoesOn c c
  | claims (k : Claim) : Controller.GoesOn c (Controller.claim c k)
  | takesOver (e : Erase) (since : Nat) :
    Controller.GoesOn c { op := some (.erase .foreground e since), suspended := none, waiting := c.waiting }

/-- What the command in progress goes on to: it stays, ends, waits at a step, of FORMAT only where it was a FORMAT, or with a
RESTART pending it ends in clearing (R172, R178, R179). -/
inductive WorkView.GoesOn (v : WorkView) : WorkView → Prop
  | stays : GoesOn v v
  | ends : GoesOn v { v with job := none }
  | waits {j : Job} {ctrl : Controller}
    (formats : EngineStep.formats j.step = true → ∃ i ∈ v.job, EngineStep.formats i.step = true)
    (goes : Controller.GoesOn v.ctrl ctrl) : GoesOn v { v with job := some j, ctrl := ctrl }
  | clears (pending : v.restartPending = true) : GoesOn v (begun v.isOpen)

/-- The command in progress of `s` goes on, or ends, with `t`. -/
abbrev State.GoesOn (s t : State) : Prop := WorkView.GoesOn (State.view s) (State.view t)

/-- What went on from a state of the same work went on from this one. -/
theorem State.GoesOn.of_view {s t u : State} (h : State.GoesOn u t) (same : State.view u = State.view s) :
    State.GoesOn s t := by rwa [State.GoesOn, ← same]

section Command

variable (s : State) (cmd : Command)

theorem State.post_goesOn (r : Result) : State.GoesOn s (State.post s cmd r) := by
  unfold State.post
  split
  · next pending => exact .clears pending
  · exact .ends

theorem State.claimStep_goesOn {step : EngineStep} (plain : EngineStep.formats step = false) (k : Claim) :
    State.GoesOn s (State.claimStep s cmd step k) :=
  .waits (j := { cmd := cmd, step := step }) (fun formats => by simp [plain] at formats) (.claims k)

theorem State.demandNext_goesOn (w : Writing) : State.GoesOn s (State.demandNext s cmd w) := by
  unfold State.demandNext
  split
  · exact State.claimStep_goesOn s cmd rfl _
  · exact State.post_goesOn s cmd _

theorem State.demandReclaim_goesOn (w : Writing) : State.GoesOn s (State.demandReclaim s cmd w) := by
  unfold State.demandReclaim
  split
  · next e _ => exact .waits (j := { cmd := cmd, step := .takeErase w }) nofun (.takesOver e 0)
  · next e since unsuspended _ =>
    have taken := Controller.GoesOn.takesOver (c := s.ctrl) e since
    rw [← unsuspended] at taken
    exact .waits (j := { cmd := cmd, step := .takeErase w }) nofun taken
  · exact State.claimStep_goesOn s cmd rfl _
  · exact State.demandNext_goesOn s cmd w

theorem State.take_goesOn (w : Writing) : State.GoesOn s (State.take s cmd w) := by
  unfold State.take
  split
  · exact State.claimStep_goesOn s cmd (step := .openingStrike w) rfl _
  · exact State.demandReclaim_goesOn s cmd w

theorem State.newFrameReleased_goesOn (w : Writing) (f : Frame) (verified : Bool) :
    State.GoesOn s (State.newFrameReleased s cmd w f verified) := by
  unfold State.newFrameReleased
  dsimp only
  split
  · exact (State.take_goesOn _ cmd _).of_view rfl
  · exact (State.post_goesOn _ cmd _).of_view rfl

theorem State.newFrameLive_goesOn (w : Writing) (f : Frame) : State.GoesOn s (State.newFrameLive s cmd w f) := by
  unfold State.newFrameLive
  split
  · exact (State.post_goesOn _ cmd _).of_view rfl
  · exact State.claimStep_goesOn s cmd rfl _

theorem State.fallback_goesOn (f : Frame) (fallback lost : Result) :
    State.GoesOn s (State.fallback s cmd f fallback lost) :=
  (State.claimStep_goesOn _ cmd rfl _).of_view rfl

theorem State.movedDone_goesOn (w : Writing) (o : OldGrant) (new : Frame) (verified : Bool) :
    State.GoesOn s (State.movedDone s cmd w o new verified) := by
  unfold State.movedDone
  dsimp only
  split
  · exact (State.post_goesOn _ cmd _).of_view rfl
  · exact (State.fallback_goesOn _ cmd o.frame _ _).of_view rfl

theorem State.retiredDone_goesOn (e : Ending) (f : Frame) (verified : Bool) :
    State.GoesOn s (State.retiredDone s cmd e f verified) := by
  unfold State.retiredDone
  dsimp only
  split
  · exact (State.post_goesOn _ cmd _).of_view rfl
  · exact (State.fallback_goesOn _ cmd f _ _).of_view rfl

theorem State.retire_goesOn (e : Ending) (f : Frame) (bits : Byte) : State.GoesOn s (State.retire s cmd e f bits) := by
  unfold State.retire
  split
  · exact State.retiredDone_goesOn s cmd e f true
  · exact State.claimStep_goesOn s cmd rfl _

theorem State.purgeNext_goesOn (members : List Frame) (moved failed : Nat) :
    State.GoesOn s (State.purgeNext s cmd members moved failed) := by
  unfold State.purgeNext
  split
  · exact State.claimStep_goesOn s cmd rfl _
  · exact State.post_goesOn s cmd _

theorem State.configureStruck_goesOn (k : ClassNo) (p : Policy) (verified : Bool) :
    State.GoesOn s (State.configureStruck s cmd k p verified) := by
  unfold State.configureStruck
  split
  · exact (State.post_goesOn _ cmd _).of_view rfl
  · exact State.claimStep_goesOn s cmd rfl _

theorem State.demandErased_goesOn (w : Writing) (f : Frame) (verified : Bool) :
    State.GoesOn s (State.demandErased s cmd w f verified) := by
  unfold State.demandErased
  split
  · exact (State.claimStep_goesOn _ cmd (step := .openingStrike w) rfl _).of_view rfl
  · exact State.claimStep_goesOn s cmd rfl _

theorem State.fallbackErased_goesOn (fallback lost : Result) (f : Frame) (verified : Bool) :
    State.GoesOn s (State.fallbackErased s cmd fallback lost f verified) := by
  unfold State.fallbackErased
  split
  · exact (State.post_goesOn _ cmd _).of_view rfl
  · exact State.claimStep_goesOn s cmd rfl _

/-! ### READs -/

theorem State.lookupRead_goesOn (snap : Snapshot) (e : Entry) (f : Frame) (img : Image) :
    State.GoesOn s (State.lookupRead s cmd snap e f img) := by
  unfold State.lookupRead
  split
  · exact (State.post_goesOn _ cmd _).of_view rfl
  · exact (State.post_goesOn _ cmd _).of_view rfl

theorem State.drawRead_goesOn (snap : Snapshot) (e : Entry) (f : Frame) (img : Image) :
    State.GoesOn s (State.drawRead s cmd snap e f img) := by
  unfold State.drawRead
  split
  · dsimp only
    split
    · split
      · exact State.post_goesOn s cmd _
      · split
        · exact State.post_goesOn s cmd _
        · split
          · exact State.post_goesOn s cmd _
          · exact State.claimStep_goesOn s cmd rfl _
    · exact State.post_goesOn s cmd _
  · exact (State.post_goesOn _ cmd _).of_view rfl

theorem State.drawStruckB_goesOn (d : Drawing) (e : Entry) (verifiedA : Bool) (f : Frame) (verifiedB : Bool) :
    State.GoesOn s (State.drawStruckB s cmd d e verifiedA f verifiedB) := by
  unfold State.drawStruckB
  split
  · exact State.claimStep_goesOn s cmd rfl _
  · dsimp only
    split
    · exact State.retire_goesOn s cmd _ f _
    · exact State.post_goesOn s cmd _

theorem State.drawReadBack_goesOn (d : Drawing) (e : Entry) (img : Image) :
    State.GoesOn s (State.drawReadBack s cmd d e img) := by
  unfold State.drawReadBack
  split
  · exact State.post_goesOn s cmd _
  · exact (State.post_goesOn _ cmd _).of_view rfl

theorem State.topupRead_goesOn (snap : Snapshot) (e : Entry) (f : Frame) (img : Image) :
    State.GoesOn s (State.topupRead s cmd snap e f img) := by
  unfold State.topupRead
  split
  · dsimp only
    split
    · split
      · exact State.post_goesOn s cmd _
      · split
        · exact State.post_goesOn s cmd _
        · split
          · exact State.post_goesOn s cmd _
          · exact State.take_goesOn s cmd _
    · exact State.post_goesOn s cmd _
  · exact (State.post_goesOn _ cmd _).of_view rfl

theorem State.moveRead_goesOn (e : Entry) (f : Frame) (img : Image) : State.GoesOn s (State.moveRead s cmd e f img) := by
  unfold State.moveRead
  split
  · dsimp only
    split
    · exact State.post_goesOn s cmd _
    · exact State.take_goesOn s cmd _
  · exact (State.post_goesOn _ cmd _).of_view rfl

theorem State.revokeRead_goesOn (snap : Snapshot) (e : Entry) (f : Frame) (img : Image) :
    State.GoesOn s (State.revokeRead s cmd snap e f img) := by
  unfold State.revokeRead
  dsimp only
  split
  · exact State.retire_goesOn s cmd _ f _
  · split
    · split
      · split
        · exact State.retire_goesOn s cmd _ f _
        · exact State.post_goesOn s cmd _
      · exact State.post_goesOn s cmd _
    · exact (State.retire_goesOn _ cmd _ f _).of_view rfl

/-! ### FORMAT -/

section Format

variable (formatting : ∃ j ∈ s.engine.job, EngineStep.formats j.step = true)
include formatting

theorem State.claimFormat_goesOn (step : EngineStep) (k : Claim) : State.GoesOn s (State.claimStep s cmd step k) :=
  .waits (j := { cmd := cmd, step := step }) (fun _ => formatting) (.claims k)

theorem State.formatSweep_goesOn (f : Formatting) (n : Nat) : State.GoesOn s (State.formatSweep s cmd f n) := by
  unfold State.formatSweep
  split <;> exact State.claimFormat_goesOn s cmd formatting _ _

theorem State.formatErased_goesOn (f : Formatting) (g : Frame) (verified : Bool) :
    State.GoesOn s (State.formatErased s cmd f g verified) := by
  unfold State.formatErased
  split
  · dsimp only
    split
    · exact State.claimFormat_goesOn s cmd formatting _ _
    · exact State.formatSweep_goesOn s cmd formatting _ _
  · split
    · exact State.formatSweep_goesOn s cmd formatting _ _
    · exact State.claimFormat_goesOn s cmd formatting _ _

theorem State.formatMarked_goesOn (f : Formatting) (g : Frame) (verified : Bool) :
    State.GoesOn s (State.formatMarked s cmd f g verified) := by
  unfold State.formatMarked
  split
  · exact (State.formatSweep_goesOn _ cmd (by exact formatting) _ _).of_view rfl
  · exact State.formatSweep_goesOn s cmd formatting _ _

end Format

end Command

/-! ### A report to the command in progress -/

section Report

variable {s : State} {j : Job} (hj : s.engine.job = some j)
include hj

theorem State.engineRead_goesOn (f : Frame) (img : Image) : State.GoesOn s (State.engineRead s j f img) := by
  obtain ⟨cmd, step⟩ := j
  cases step <;> dsimp only [State.engineRead]
  case lookupRead snap e => exact State.lookupRead_goesOn s cmd snap e f img
  case drawRead snap e => exact State.drawRead_goesOn s cmd snap e f img
  case drawReadBack d e => exact State.drawReadBack_goesOn s cmd d e img
  case topupRead snap e => exact State.topupRead_goesOn s cmd snap e f img
  case moveRead e => exact State.moveRead_goesOn s cmd e f img
  case revokeRead snap e => exact State.revokeRead_goesOn s cmd snap e f img
  case configureRead k => exact (State.post_goesOn _ cmd _).of_view rfl
  case formatMapRead fm =>
    generalize Image.badFrames img = bad
    exact (State.claimFormat_goesOn _ cmd ⟨_, hj, rfl⟩ _ _).of_view rfl
  all_goals exact .stays

/-- But for the format record's strike, after which a mount begins (R160). -/
theorem State.engineStruck_goesOn (other : ∀ fm, j.step ≠ .formatRecord fm) (f : Frame) (verified : Bool) :
    State.GoesOn s (State.engineStruck s j f verified) := by
  obtain ⟨cmd, step⟩ := j
  cases step <;> dsimp only [State.engineStruck]
  case drawStrikeA d e => exact State.claimStep_goesOn s cmd rfl _
  case drawStrikeB d e verifiedA => exact State.drawStruckB_goesOn s cmd d e verifiedA f verified
  case takeMark g w => exact (State.demandNext_goesOn _ cmd w).of_view rfl
  case openingStrike w => split <;> exact State.claimStep_goesOn s cmd rfl _
  case bodyStrike w => split <;> exact State.claimStep_goesOn s cmd rfl _
  case liveStrike w =>
    split
    · exact State.newFrameLive_goesOn s cmd w f
    · exact State.claimStep_goesOn s cmd rfl _
  case newFrameMark g w => exact State.newFrameReleased_goesOn s cmd w g verified
  case movedStrike w o new => exact State.movedDone_goesOn s cmd w o new verified
  case retiredStrike e => exact State.retiredDone_goesOn s cmd e f verified
  case fallbackMark g fallback lost => exact (State.post_goesOn _ cmd _).of_view rfl
  case configureStrike k p => exact State.configureStruck_goesOn s cmd k p verified
  case purgeStrike rest moved failed => exact (State.purgeNext_goesOn _ cmd rest _ _).of_view rfl
  case formatMark g fm => exact State.formatMarked_goesOn s cmd ⟨_, hj, rfl⟩ fm g verified
  case formatRecord fm => exact absurd rfl (other fm)
  all_goals exact .stays

theorem State.engineErased_goesOn (f : Frame) (verified : Bool) : State.GoesOn s (State.engineErased s j f verified) := by
  obtain ⟨cmd, step⟩ := j
  cases step <;> dsimp only [State.engineErased]
  case takeErase w => exact State.demandErased_goesOn s cmd w f verified
  case fallbackErase fallback lost => exact State.fallbackErased_goesOn s cmd fallback lost f verified
  case formatErase fm => exact State.formatErased_goesOn s cmd ⟨_, hj, rfl⟩ fm f verified
  all_goals exact .stays

end Report

/-! ### A mount goes on -/

/-- What a mount that does not end goes on to: it stays, goes on to its walk with no operation, or waits for a claim (R149,
R155, R156). -/
inductive WorkView.MountGoesOn (v : WorkView) : WorkView → Prop
  | stays : MountGoesOn v v
  | rests (w : MountWork) : MountGoesOn v { v with mount := some w }
  | claims (w : MountWork) (scans : w.step ≠ .walk) (k : Claim) :
    MountGoesOn v { v with mount := some w, ctrl := Controller.claim v.ctrl k }

/-- The mount of `s` goes on with `t`. -/
abbrev State.MountGoesOn (s t : State) : Prop := WorkView.MountGoesOn (State.view s) (State.view t)

/-- What went on from a state of the same work went on from this one. -/
theorem State.MountGoesOn.of_view {s t u : State} (h : State.MountGoesOn u t) (same : State.view u = State.view s) :
    State.MountGoesOn s t := by rwa [State.MountGoesOn, ← same]

section Mount

variable (s : State) (w : MountWork)

theorem State.mountClaim_mountGoesOn {w : MountWork} (scans : w.step ≠ .walk) (k : Claim) :
    State.MountGoesOn s (State.mountClaim s w k) := .claims w scans k

theorem State.resolve_mountGoesOn (todo winners : List Candidate) :
    State.MountGoesOn s (State.resolve s w todo winners) := by
  induction todo generalizing winners with
  | nil => exact .rests { w with step := .walk }
  | cons q todo ih =>
    unfold State.resolve
    split
    · exact ih _
    · exact (State.mountClaim_mountGoesOn _ (by simp) _).of_view rfl

theorem State.scanFrom_mountGoesOn (n : Nat) : State.MountGoesOn s (State.scanFrom s w n) := by
  unfold State.scanFrom
  split
  · exact State.mountClaim_mountGoesOn s (by simp) _
  · exact State.resolve_mountGoesOn s w _ _

theorem State.scanned_mountGoesOn (f : Frame) (found : Scanned) : State.MountGoesOn s (State.scanned s w f found) := by
  cases found <;> dsimp only [State.scanned]
  case dirty => exact (State.scanFrom_mountGoesOn _ _ _).of_view rfl
  case abandoned => exact (State.mountClaim_mountGoesOn _ (by simp) _).of_view rfl
  case orphan => exact (State.scanFrom_mountGoesOn _ _ _).of_view rfl
  all_goals exact State.scanFrom_mountGoesOn s _ _

theorem State.scanRead_mountGoesOn (f : Frame) (img : Image) : State.MountGoesOn s (State.scanRead s w f img) := by
  have counted (r : MountReport) : State.view (if irregular (img 0) then State.setReport s r else s) = State.view s := by
    split <;> rfl
  unfold State.scanRead
  dsimp only
  split
  · exact (State.scanned_mountGoesOn _ w f _).of_view (counted _)
  · exact (State.mountClaim_mountGoesOn _ (by simp) _).of_view (counted _)

theorem State.mountGoesOn_mountGoesOn (f : Frame) (next : MountNext) :
    State.MountGoesOn s (State.mountGoesOn s w f next) := by
  cases next with
  | scan => exact State.scanFrom_mountGoesOn s w _
  | resolve todo winners => exact State.resolve_mountGoesOn s w todo winners

/-- A READ of frame 0 that finds no valid record ends the mount UNFORMATTED or FAULTED (R146); otherwise it goes on. -/
theorem State.mountRead_mountGoesOn (f : Frame) (img : Image) :
    State.MountGoesOn s (State.mountRead s w f img) ∨
      ∃ part, (part = .unformatted ∨ part = .faulted) ∧
        State.mountRead s w f img = State.mountEnds (State.setPools s { s.pools with bad := [] }) part := by
  obtain ⟨step, scanned⟩ := w
  cases step <;> dsimp only [State.mountRead]
  case readFormat =>
    unfold State.mountFormat
    split
    · exact .inr ⟨_, .inl rfl, rfl⟩
    · split
      · exact .inl ((State.mountClaim_mountGoesOn _ (by simp) _).of_view rfl)
      · exact .inr ⟨_, .inr rfl, rfl⟩
  case readMap =>
    unfold State.mountMap
    generalize Image.badFrames img = bad
    exact .inl ((State.mountClaim_mountGoesOn _ (by simp) _).of_view rfl)
  case readPolicies => exact .inl ((State.scanFrom_mountGoesOn _ _ 3).of_view rfl)
  case scanRead => exact .inl (State.scanRead_mountGoesOn s _ f img)
  all_goals exact .inl .stays

theorem State.mountStruck_mountGoesOn (f : Frame) (verified : Bool) :
    State.MountGoesOn s (State.mountStruck s w f verified) := by
  obtain ⟨step, scanned⟩ := w
  cases step <;> dsimp only [State.mountStruck]
  case regularise found => exact State.scanned_mountGoesOn s _ f _
  case retire =>
    split
    · exact State.mountGoesOn_mountGoesOn s _ f _
    · exact State.mountClaim_mountGoesOn s (by simp) _
  case movedStrike next =>
    split
    · exact State.mountGoesOn_mountGoesOn s _ f _
    · exact State.mountClaim_mountGoesOn s (by simp) _
  case fallbackMark g next =>
    split
    · exact (State.mountGoesOn_mountGoesOn _ _ g _).of_view rfl
    · exact State.mountGoesOn_mountGoesOn s _ g _
  all_goals exact .stays

theorem State.mountErased_mountGoesOn (f : Frame) (verified : Bool) :
    State.MountGoesOn s (State.mountErased s w f verified) := by
  obtain ⟨step, scanned⟩ := w
  cases step <;> dsimp only [State.mountErased]
  case fallbackErase next =>
    split
    · exact State.mountGoesOn_mountGoesOn s _ f _
    · exact State.mountClaim_mountGoesOn s (by simp) _
  all_goals exact .stays

end Mount

end Sys2Proof.Machine
end

section
/-! The work in progress stays coherent (R107, R108, R114, R116, R142) and the part state stands, whatever the command in
progress, a mount or the waiting claim goes on to. -/

namespace Sys2Proof.Machine

namespace WorkView

/-! ### The part state -/

/-- The part state and the mount stand, or with a RESTART pending the part is cleared (R142, R179). -/
structure Kept (v u : WorkView) : Prop where
  isOpen : u.isOpen = v.isOpen
  part : u.part = v.part ∧ (u.mount.isSome = true → v.mount.isSome = true) ∨ v.restartPending = true ∧ u.part = .mounting

theorem GoesOn.kept {v u : WorkView} (h : GoesOn v u) : Kept v u := by
  cases h with
  | stays | ends | waits => exact ⟨rfl, .inl ⟨rfl, id⟩⟩
  | clears pending => exact ⟨rfl, .inr ⟨pending, rfl⟩⟩

theorem MountGoesOn.kept {v u : WorkView} (h : MountGoesOn v u) (mount : v.mount.isSome = true) : Kept v u := by
  cases h <;> exact ⟨rfl, .inl ⟨rfl, fun _ => mount⟩⟩

/-! ### Coherence -/

/-- The work is coherent and the foreground neither works on the array nor waits for it. -/
structure Free (v : WorkView) : Prop where
  mounting : v.mount.isSome = true → v.part = .mounting
  idle : Controller.foregroundIdle v.ctrl
  suspends : Controller.backgroundBusy v.ctrl = true → v.ctrl.suspended = none
  formats : ∀ j ∈ v.job, EngineStep.formats j.step = true → v.part ≠ .ready
  mounts : v.mount.isSome = true → ∀ j ∈ v.job, EngineStep.mounts j.step = true

theorem Free.ok {v : WorkView} (h : Free v) : Ok v where
  mounting := h.mounting
  waits := fun waits => absurd h.idle.2 waits
  suspends := h.suspends
  idle := fun _ _ => h.idle
  formats := h.formats
  mounts := fun _ hw => ⟨h.mounts (Option.isSome_of_mem hw), fun _ => h.idle⟩

end WorkView

/-- A foreground claim begins no background operation. -/
theorem Claim.operation_foreground {k : Claim} {op : Op} (h : Claim.operation k = some op) : Op.isBackground op = false := by
  cases k <;> cases h <;> rfl

/-- A controller the foreground goes on with stays coherent (R114, R116). -/
theorem Controller.GoesOn.coherent {c d : Controller} (h : Controller.GoesOn c d) (idle : Controller.foregroundIdle c)
    (suspends : Controller.backgroundBusy c = true → c.suspended = none) :
    (d.waiting ≠ none → Controller.backgroundBusy d = true) ∧ (Controller.backgroundBusy d = true → d.suspended = none) := by
  obtain ⟨calm, unclaimed⟩ := idle
  cases h with
  | stays => exact ⟨fun waits => absurd unclaimed waits, suspends⟩
  | takesOver e since => exact ⟨fun waits => absurd unclaimed waits, nofun⟩
  | claims k =>
    cases ho : c.op with
    | none =>
      rw [Controller.claim_of_idle ho]
      refine ⟨fun waits => absurd rfl waits, fun busy => ?_⟩
      cases hk : Claim.operation k with
      | none => simp [Controller.backgroundBusy, hk] at busy
      | some op => simp [Controller.backgroundBusy, hk, Claim.operation_foreground hk] at busy
    | some op =>
      have background : Op.isBackground op = true := by simpa [Controller.foregroundBusy, ho] using calm
      have busy : Controller.backgroundBusy c = true := by simpa [Controller.backgroundBusy, ho] using background
      rw [Controller.claim_of_busy ho]
      exact ⟨fun _ => by simpa [Controller.backgroundBusy, ho] using busy, fun _ => suspends busy⟩

namespace WorkView

/-- A pending RESTART does not touch coherence. -/
theorem Ok.setPending {v : WorkView} (ok : Ok v) (pending : Bool) : Ok { v with restartPending := pending } :=
  ⟨ok.mounting, ok.waits, ok.suspends, ok.idle, ok.formats, ok.mounts⟩

theorem GoesOn.ok {v u : WorkView} (h : GoesOn v u) (free : Free v) (off : v.mount = none) : Ok u := by
  cases h with
  | stays => exact free.ok
  | ends => exact Free.ok ⟨free.mounting, free.idle, free.suspends, by simp, by simp⟩
  | clears pending => exact begun_ok _
  | @waits j ctrl formats goes =>
    obtain ⟨waits, suspends⟩ := goes.coherent free.idle free.suspends
    refine ⟨free.mounting, waits, suspends, by simp, ?_, by simp [off]⟩
    rintro i ⟨rfl⟩ formatting
    obtain ⟨j, hj, formatting⟩ := formats formatting
    exact free.formats j hj formatting

theorem MountGoesOn.ok {v u : WorkView} (h : MountGoesOn v u) (free : Free v) (mount : v.mount.isSome = true) : Ok u := by
  have part := free.mounting mount
  have formats : ∀ j ∈ v.job, EngineStep.formats j.step = true → v.part ≠ .ready := by simp [part]
  cases h with
  | stays => exact free.ok
  | rests w => exact Free.ok ⟨fun _ => part, free.idle, free.suspends, formats, fun _ => free.mounts mount⟩
  | claims w scans k =>
    obtain ⟨waits, suspends⟩ := (Controller.GoesOn.claims k).coherent free.idle free.suspends
    refine ⟨fun _ => part, waits, suspends, by simp, formats, ?_⟩
    rintro w ⟨rfl⟩
    exact ⟨free.mounts mount, fun walk => absurd walk scans⟩

end WorkView

/-! ### A mount ends -/

/-- The end of a mount in a part state: the FORMAT before it posts its result, or with a RESTART pending ends in clearing (R144,
R162, R164). -/
inductive WorkView.MountEnds (v : WorkView) (part : PartState) : WorkView → Prop
  | stands (other : ∀ j ∈ v.job, EngineStep.mounts j.step = false) : MountEnds v part { v with part := part, mount := none }
  | posts : MountEnds v part { v with part := part, mount := none, job := none }
  | clears (pending : v.restartPending = true) : MountEnds v part (begun v.isOpen)

theorem State.mountEnds_view (s : State) (part : PartState) :
    WorkView.MountEnds (State.view s) part (State.view (State.mountEnds s part)) := by
  unfold State.mountEnds
  dsimp only
  split
  · unfold State.post
    split
    · next pending => exact .clears pending
    · exact .posts
  · next other =>
    refine .stands fun j hj => Bool.eq_false_iff.mpr fun mounts => ?_
    obtain ⟨cmd, step⟩ := j
    obtain ⟨f, rfl⟩ := EngineStep.mounts_iff.mp mounts
    exact other cmd f hj

/-- The end of a mount sets MOUNTED, or the part is cleared and mounts again (R144, R179). -/
theorem State.mountEnds_mounted (s : State) (part : PartState) :
    (State.mountEnds s part).part = part ∧ (State.mountEnds s part).link.mounted = true ∨
      (State.mountEnds s part).part = .mounting := by
  unfold State.mountEnds
  dsimp only
  split
  · unfold State.post
    split
    · exact .inr rfl
    · exact .inl ⟨rfl, rfl⟩
  · exact .inl ⟨rfl, rfl⟩

namespace WorkView

theorem MountEnds.isOpen {v u : WorkView} {part : PartState} (h : MountEnds v part u) : u.isOpen = v.isOpen := by
  cases h <;> rfl

theorem MountEnds.ok {v u : WorkView} {part : PartState} (h : MountEnds v part u) (free : Free v)
    (mount : v.mount.isSome = true) : Ok u := by
  have ended : Ok { v with part := part, mount := none, job := none } :=
    Free.ok ⟨by simp, free.idle, free.suspends, by simp, by simp⟩
  cases h with
  | posts => exact ended
  | clears pending => exact begun_ok _
  | stands other =>
    have none : v.job = none := Option.eq_none_iff_forall_not_mem.mpr fun j hj => by
      simpa [other j hj] using free.mounts mount j hj
    rwa [← none] at ended

theorem MountEnds.mountOk {v u : WorkView} {part : PartState} (h : MountEnds v part u) :
    u.mount.isSome = true → u.part = .mounting := by
  cases h with
  | stands | posts => simp
  | clears => exact fun _ => rfl

end WorkView

/-! ### A report to the foreground -/

/-- What a completion reported to the foreground does, but for those that end a mount or begin one: the mount goes on, or the
command in progress (R108). -/
inductive WorkView.Reported (v : WorkView) : WorkView → Prop
  | mount {u : WorkView} (mount : v.mount.isSome = true) (h : MountGoesOn v u) : Reported v u
  | command {u : WorkView} (off : v.mount = none) (h : GoesOn v u) : Reported v u

namespace WorkView

theorem Reported.kept {v u : WorkView} (h : Reported v u) : Kept v u := by
  cases h with
  | mount mount h => exact h.kept mount
  | command off h => exact h.kept

theorem Reported.ok {v u : WorkView} (h : Reported v u) (free : Free v) : Ok u := by
  cases h with
  | mount mount h => exact h.ok free mount
  | command off h => exact h.ok free off

end WorkView

abbrev State.Reported (s t : State) : Prop := WorkView.Reported (State.view s) (State.view t)

theorem State.reportRead_reported (s : State) (f : Frame) (img : Image) :
    State.Reported s (State.reportRead s f img) ∨
      ∃ part, (part = .unformatted ∨ part = .faulted) ∧ s.mount.work.isSome = true ∧
        State.reportRead s f img = State.mountEnds (State.setPools s { s.pools with bad := [] }) part := by
  unfold State.reportRead
  split
  · next w hw =>
    have mount : s.mount.work.isSome = true := by simp [hw]
    rcases State.mountRead_mountGoesOn s w f img with goes | ⟨part, ended, h⟩
    · exact .inl (.mount mount goes)
    · exact .inr ⟨part, ended, mount, h⟩
  · next hw hj => exact .inl (.command hw (State.engineRead_goesOn hj f img))
  · next hw _ => exact .inl (.command hw .stays)

theorem State.reportStrike_reported (s : State) (f : Frame) (verified : Bool) :
    State.Reported s (State.reportStrike s f verified) ∨
      ∃ cmd fm, s.engine.job = some { cmd := cmd, step := .formatRecord fm } ∧ s.mount.work = none ∧
        State.reportStrike s f verified = State.formatWritten s cmd fm verified := by
  unfold State.reportStrike
  split
  · next w hw => exact .inl (.mount (by simp [State.view, hw]) (State.mountStruck_mountGoesOn s w f verified))
  · next j hw hj =>
    by_cases record : ∃ fm, j.step = .formatRecord fm
    · obtain ⟨cmd, step⟩ := j
      obtain ⟨fm, rfl⟩ := record
      exact .inr ⟨cmd, fm, hj, hw, rfl⟩
    · exact .inl (.command hw (State.engineStruck_goesOn hj (fun fm h => record ⟨fm, h⟩) f verified))
  · next hw _ => exact .inl (.command hw .stays)

theorem State.reportErase_reported (s : State) (f : Frame) (verified : Bool) :
    State.Reported s (State.reportErase s f verified) := by
  unfold State.reportErase
  split
  · next w hw => exact .mount (by simp [State.view, hw]) (State.mountErased_mountGoesOn s w f verified)
  · next hw hj => exact .command hw (State.engineErased_goesOn hj f verified)
  · next hw _ => exact .command hw .stays

/-! ### The waiting claim is served -/

/-- What the end of background work does for a foreground claim that waited: with none nothing, its operation begins, or the
take that waited goes on (R114, R131). -/
inductive WorkView.Served (v : WorkView) : WorkView → Prop
  | quiet (unclaimed : v.ctrl.waiting = none) : Served v v
  | claims {k : Claim} (waits : v.ctrl.waiting = some k) :
    Served v { v with ctrl := { op := Claim.operation k, suspended := v.ctrl.suspended, waiting := none } }
  | takes {cmd : Command} {w : Writing} {u : WorkView} (hj : v.job = some { cmd := cmd, step := .takeWait w })
    (h : GoesOn { v with ctrl := { v.ctrl with waiting := none } } u) : Served v u

theorem State.serveWaiting_served {s : State} (idle : s.ctrl.op = none) :
    WorkView.Served (State.view s) (State.view (State.serveWaiting s)) := by
  unfold State.serveWaiting
  split
  · next quiet => exact .quiet quiet
  · next waits =>
    dsimp only
    split
    · next cmd w hj => exact .takes hj (State.take_goesOn { s with ctrl := { s.ctrl with waiting := none } } cmd w)
    · have begun := WorkView.Served.claims (v := State.view s) waits
      rwa [show Claim.operation .demand = (State.view s).ctrl.op from idle.symm] at begun
  · next k _ waits =>
    have begun := WorkView.Served.claims (v := State.view s) waits
    have claimed : Controller.claim { s.ctrl with waiting := none } k = _ := Controller.claim_of_idle idle k
    change WorkView.Served _ { State.view s with ctrl := Controller.claim { s.ctrl with waiting := none } k }
    rwa [claimed]

namespace WorkView

theorem Served.kept {v u : WorkView} (h : Served v u) : Kept v u := by
  cases h with
  | quiet | claims => exact ⟨rfl, .inl ⟨rfl, id⟩⟩
  | takes hj h => exact ⟨h.kept.isOpen, h.kept.part⟩

/-- After background work ended, with the waiting claim as it stood (R114, R116). -/
theorem Served.ok {v u : WorkView} {suspended : Option Erase}
    (h : Served { v with ctrl := { v.ctrl with op := none, suspended := suspended } } u) (ok : Ok v) : Ok u := by
  have walks : ∀ w ∈ v.mount, w.step = .walk → v.ctrl.waiting = none := fun w hw walk => ((ok.mounts w hw).2 walk).2
  have free (quiet : v.mount = none ∨ v.ctrl.waiting = none) :
      Free { v with ctrl := { op := none, suspended := suspended, waiting := none } } :=
    ⟨ok.mounting, ⟨rfl, rfl⟩, nofun, ok.formats, fun mount => by
      obtain ⟨w, hw⟩ := Option.isSome_iff_exists.mp mount
      exact (ok.mounts w hw).1⟩
  cases h with
  | quiet quiet =>
    have free := free (.inr quiet)
    rw [← show v.ctrl.waiting = none from quiet] at free
    exact free.ok
  | @claims k waits =>
    have claimed : v.ctrl.waiting = some k := waits
    refine ⟨ok.mounting, fun h => absurd rfl h, fun busy => ?_, fun job off => ?_, ok.formats,
      fun w hw => ⟨(ok.mounts w hw).1, fun walk => ?_⟩⟩
    · cases hk : Claim.operation k with
      | none => simp [Controller.backgroundBusy, hk] at busy
      | some op => simp [Controller.backgroundBusy, hk, Claim.operation_foreground hk] at busy
    · exact absurd ((ok.idle job off).2) (by simp [claimed])
    · exact absurd (walks w hw walk) (by simp [claimed])
  | takes hj h =>
    have off : v.mount = none := by
      refine Option.eq_none_iff_forall_not_mem.mpr fun w hw => ?_
      exact absurd ((ok.mounts w hw).1 _ hj) (by simp [EngineStep.mounts])
    exact h.ok (free (.inl off)) off

end WorkView

end Sys2Proof.Machine
end

section
/-! What the events of the array controller and the dispatches do to the work in progress (R107, R112 to R119, R142, R170). -/

namespace Sys2Proof.Machine

/-! ### Events -/

/-- What an event of the array controller or a dispatch does to the work, but for those that end a mount or begin one: the
operation goes on as another of its claimant, or ends with a report to the foreground or with the waiting claim served;
background reclaim starts or resumes with the foreground quiet (R117); a command passes to the engine (R170). -/
inductive WorkView.Event (v : WorkView) : WorkView → Prop
  | proceeds {op op' : Op} (progressing : v.ctrl.op = some op) (claimant : Op.isBackground op' = Op.isBackground op) :
    Event v { v with ctrl := { v.ctrl with op := some op' } }
  | reports {op : Op} {u : WorkView} (progressing : v.ctrl.op = some op) (foreground : Op.isBackground op = false)
    (h : Reported { v with ctrl := { v.ctrl with op := none } } u) : Event v u
  | serves {op : Op} (suspended : Option Erase) {u : WorkView} (progressing : v.ctrl.op = some op)
    (background : Op.isBackground op = true)
    (h : Served { v with ctrl := { v.ctrl with op := none, suspended := suspended } } u) : Event v u
  | starts (e : Erase) (ready : v.part = .ready) (job : v.job = none) :
    Event v { v with ctrl := { v.ctrl with op := some (.erase .background e 0), suspended := none } }
  | dispatches {u : WorkView} (job : v.job = none) (admitted : v.part ≠ .mounting) (h : GoesOn v u) : Event v u

namespace WorkView

theorem Event.kept {v u : WorkView} (h : Event v u) : Kept v u := by
  cases h with
  | proceeds | starts => exact ⟨rfl, .inl ⟨rfl, id⟩⟩
  | reports _ _ h => exact ⟨h.kept.isOpen, h.kept.part⟩
  | serves _ _ _ h => exact ⟨h.kept.isOpen, h.kept.part⟩
  | dispatches _ _ h => exact h.kept

/-- While a foreground operation progresses no claim waits (R107, R114). -/
theorem Ok.unclaimed {v : WorkView} (ok : Ok v) {op : Op} (progressing : v.ctrl.op = some op)
    (foreground : Op.isBackground op = false) : v.ctrl.waiting = none := by
  by_contra waits
  simpa [Controller.backgroundBusy, progressing, foreground] using ok.waits waits

/-- A foreground operation that ends leaves the foreground free. -/
theorem Ok.free {v : WorkView} (ok : Ok v) {op : Op} (progressing : v.ctrl.op = some op)
    (foreground : Op.isBackground op = false) : Free { v with ctrl := { v.ctrl with op := none } } where
  mounting := ok.mounting
  idle := ⟨rfl, ok.unclaimed progressing foreground⟩
  suspends := by simp [Controller.backgroundBusy]
  formats := ok.formats
  mounts := fun mount => by
    obtain ⟨w, hw⟩ := Option.isSome_iff_exists.mp mount
    exact (ok.mounts w hw).1

/-- An operation that goes on leaves the controller as busy as it was. -/
theorem Ok.proceeds {v : WorkView} (ok : Ok v) {op op' : Op} (progressing : v.ctrl.op = some op)
    (claimant : Op.isBackground op' = Op.isBackground op) : Ok { v with ctrl := { v.ctrl with op := some op' } } := by
  have background : Controller.backgroundBusy { v.ctrl with op := some op' } = Controller.backgroundBusy v.ctrl := by
    simp [Controller.backgroundBusy, progressing, claimant]
  have foreground : Controller.foregroundBusy { v.ctrl with op := some op' } = Controller.foregroundBusy v.ctrl := by
    simp [Controller.foregroundBusy, progressing, claimant]
  have idle (h : Controller.foregroundIdle v.ctrl) : Controller.foregroundIdle { v.ctrl with op := some op' } :=
    ⟨foreground.trans h.1, h.2⟩
  exact
    { mounting := ok.mounting
      waits := fun waits => background.trans (ok.waits waits)
      suspends := fun busy => ok.suspends (background.symm.trans busy)
      idle := fun job off => idle (ok.idle job off)
      formats := ok.formats
      mounts := fun w hw => ⟨(ok.mounts w hw).1, fun walk => idle ((ok.mounts w hw).2 walk)⟩ }

theorem Ok.work_none {v : WorkView} (ok : Ok v) (part : v.part ≠ .mounting) : v.mount = none := by
  by_contra mount
  exact part (ok.mounting (Option.isSome_iff_ne_none.mpr mount))

theorem Event.ok {v u : WorkView} (h : Event v u) (ok : Ok v) : Ok u := by
  cases h with
  | proceeds progressing claimant => exact ok.proceeds progressing claimant
  | reports progressing foreground h => exact h.ok (ok.free progressing foreground)
  | serves suspended progressing background h => exact h.ok ok
  | starts e ready job =>
    obtain ⟨-, unclaimed⟩ := ok.idle job (ok.work_none (by simp [ready]))
    exact Free.ok ⟨ok.mounting, ⟨rfl, unclaimed⟩, fun _ => rfl, ok.formats, fun mount => by simp [ok.mounting mount] at ready⟩
  | dispatches job admitted h =>
    have off := ok.work_none admitted
    exact h.ok ⟨ok.mounting, ok.idle job off, ok.suspends, ok.formats, by simp [off]⟩ off

end WorkView

/-- From `s` to `t` an event took place. -/
abbrev State.Event (s t : State) : Prop := WorkView.Event (State.view s) (State.view t)

theorem State.view_systemFailure (s : State) (f : Frame) (verified : Bool) :
    State.view (State.systemFailure s f verified) = State.view s := by
  rw [State.systemFailure_eq]
  rfl

/-- Background work has ended in `u`, whose waiting claim is served. -/
theorem State.serves_event {s u : State} {op : Op} (progressing : s.ctrl.op = some op) (background : Op.isBackground op = true)
    (suspended : Option Erase)
    (same : State.view u = { State.view s with ctrl := { s.ctrl with op := none, suspended := suspended } }) :
    State.Event s (State.serveWaiting u) := by
  have served := State.serveWaiting_served (s := u) (congrArg (fun v => v.ctrl.op) same)
  rw [same] at served
  exact .serves suspended progressing background served

/-- A foreground operation has ended in `u`, where it is reported. -/
theorem State.reports_event {s t u : State} {op : Op} (progressing : s.ctrl.op = some op)
    (foreground : Op.isBackground op = false) (same : State.view u = State.view (State.clearOp s))
    (h : State.Reported u t) : State.Event s t := by
  rw [State.Reported, same] at h
  exact .reports progressing foreground h

/-! ### The end of an operation -/

theorem State.backgroundMarked_event {s u : State} {f : Frame} {what : Strike}
    (ho : s.ctrl.op = some (.strike f .background what)) (same : State.view u = State.view (State.clearOp s))
    (verified : Bool) : State.Event s (State.backgroundMarked u verified) := by
  refine State.serves_event ho rfl s.ctrl.suspended (Eq.trans ?_ same)
  split <;> rfl

theorem State.eraseVerified_event {s : State} {claimant : Claimant} {e : Erase} {since : Nat}
    (ho : s.ctrl.op = some (.erase claimant e since)) (f : Frame) : State.Event s (State.eraseVerified s claimant f) := by
  cases claimant with
  | foreground => exact State.reports_event ho rfl rfl (State.reportErase_reported (State.clearOp s) f true)
  | background => exact State.serves_event ho rfl s.ctrl.suspended rfl

theorem State.attemptFailed_event {s : State} {claimant : Claimant} {e : Erase} {since : Nat}
    (ho : s.ctrl.op = some (.erase claimant e since)) : State.Event s (State.attemptFailed s claimant e) := by
  unfold State.attemptFailed
  split
  · cases claimant with
    | foreground =>
      exact State.reports_event ho rfl (State.view_systemFailure (State.clearOp s) e.frame false)
        (State.reportErase_reported _ e.frame false)
    | background => exact .proceeds ho rfl
  · split
    · exact State.serves_event ho rfl (some (Erase.retry e)) rfl
    · exact .proceeds ho rfl

/-! ### The work of a part -/

/-- Work that a part which takes no transactions does not have (R192, R177). -/
abbrev State.Active (s : State) : Prop :=
  s.link.transaction ≠ none ∨ s.intake.waiting ≠ [] ∨ s.ctrl ≠ Controller.idle ∨ s.pools.reclaim ≠ []

theorem State.open_of_active {s : State} (closed : State.closedOk s) (active : State.Active s) : State.portOpen s = true := by
  by_contra shut
  obtain ⟨transaction, waiting, -, -, -, ctrl, -, -, reclaim, -⟩ := closed (Bool.eq_false_iff.mpr shut)
  simp [State.Active, transaction, waiting, ctrl, reclaim] at active

theorem State.active_of_op {s : State} {op : Op} (progressing : s.ctrl.op = some op) : State.Active s := by
  refine .inr (.inr (.inl fun idle => ?_))
  simp [idle, Controller.idle] at progressing

/-- What taking RESTART leaves of the work (R178, R179): all of it cleared, or background work abandoned, the claim that waited
served. -/
inductive WorkView.Restarted (v : WorkView) : WorkView → Prop
  | clears : Restarted v (begun v.isOpen)
  | forgets : Restarted v { v with restartPending := true, ctrl := { v.ctrl with suspended := none } }
  | serves {u : WorkView}
    (h : Served { v with restartPending := true, ctrl := { v.ctrl with op := none, suspended := none } } u) : Restarted v u

/-- What one command or event can do, in terms of the work in progress. -/
inductive State.Does (c : Instr) (s : State) : State → Prop
  | idles : Does c s s
  | links {t : State} (only : State.LinkPortOnly s t)
    (closed : State.portOpen s = false → s.link.transaction = none → t = s) : Does c s t
  | holds (cut : FrameBits) (pins : Pins) (reset : c = .powerOn cut ∨ c = .resetnAssertion cut ∨ c = .powerLoss cut) :
    Does c s (State.heldInReset s cut pins)
  | powers (cut : FrameBits) (on : c = .powerOn cut) : Does c s (State.powerOn s cut)
  | releases (release : c = .resetnRelease) (low : s.pins.resetnLow = true) :
    Does c s (State.beginMount { s with pins := { powered := true, resetnLow := false } })
  | works {t : State} (active : State.Active s) (event : State.Event s t) : Does c s t
  | restarts {t : State} (cut : FrameBits) (restart : c = .restart cut) (active : State.Active s)
    (mounted : s.part ≠ .mounting) (h : WorkView.Restarted (State.view s) (State.view t)) : Does c s t
  | formats {u : State} (cut : FrameBits) (cmd : Command) (format : c = .format cut) (active : State.Active s)
    (job : s.engine.job = none) (part : s.part = .ready ∨ s.part = .unformatted ∨ s.part = .faulted)
    (same : State.view u = State.view s) : Does c s (State.runFormat cut u cmd)
  | endsMount {u : State} (part : PartState) (f : Frame) (read : c = .readComplete) (progressing : s.ctrl.op = some (.read f))
    (ended : part = .unformatted ∨ part = .faulted) (mount : s.mount.work.isSome = true)
    (same : State.view u = State.view (State.clearOp s)) : Does c s (State.mountEnds u part)
  | records {u : State} (stuck : FrameBits) (f : Frame) (what : Strike) (cmd : Command) (fm : Formatting) (verified : Bool)
    (strike : c = .strikeComplete stuck) (progressing : s.ctrl.op = some (.strike f .foreground what))
    (job : s.engine.job = some { cmd := cmd, step := .formatRecord fm }) (off : s.mount.work = none)
    (same : State.view u = State.view (State.clearOp s)) : Does c s (State.formatWritten u cmd fm verified)

/-! ### The events of the array controller -/

section Events

variable (s : State)

theorem State.readComplete_does : State.Does .readComplete s (State.readComplete s) := by
  unfold State.readComplete
  split
  · next f ho =>
    rcases State.reportRead_reported (State.clearOp s) f (Memory.image s.array f) with report | ⟨part, ended, mount, same⟩
    · exact .works (State.active_of_op ho) (State.reports_event ho rfl rfl report)
    · rw [same]
      exact .endsMount part f rfl ho ended mount rfl
  · exact .idles

theorem State.strikeComplete_does (stuck : FrameBits) :
    State.Does (.strikeComplete stuck) s (State.strikeComplete s stuck) := by
  unfold State.strikeComplete
  split
  · next f claimant what ho =>
    dsimp only
    generalize Memory.strike s.array f (Strike.intended what) stuck = m
    generalize Strike.verifies what (Memory.image m f) = verified
    have same : State.view (State.systemFailure (State.setArray (State.clearOp s) m) f verified) =
        State.view (State.clearOp s) :=
      State.view_systemFailure _ f verified
    cases claimant with
    | foreground =>
      rcases State.reportStrike_reported (State.systemFailure (State.setArray (State.clearOp s) m) f verified) f verified with
        report | ⟨cmd, fm, job, off, written⟩
      · exact .works (State.active_of_op ho) (State.reports_event ho rfl same report)
      · dsimp only
        rw [written]
        exact .records stuck f what cmd fm verified rfl ho ((congrArg WorkView.job same).symm.trans job)
          ((congrArg WorkView.mount same).symm.trans off) same
    | background => exact .works (State.active_of_op ho) (State.backgroundMarked_event ho same verified)
  · exact .idles

theorem State.markerRetirement_does (c : Instr) (elapsed : Nat) (stuck : FrameBits) :
    State.Does c s (State.markerRetirement s elapsed stuck) := by
  unfold State.markerRetirement
  split
  · next claimant e since ho =>
    split
    · dsimp only
      generalize Memory.retireMarker s.array e.frame stuck = m
      refine .works (State.active_of_op ho) ?_
      split
      · exact .proceeds ho (by cases claimant <;> rfl)
      · exact State.attemptFailed_event (s := State.setArray s m) ho
    · exact .idles
  · exact .idles

theorem State.stageComplete_does (c : Instr) (stage next : Stage) (elapsed : Nat) (stuck : FrameBits) :
    State.Does c s (State.stageComplete s stage next elapsed stuck) := by
  unfold State.stageComplete
  split
  · next claimant e since ho =>
    split
    · exact .works (State.active_of_op ho) (.proceeds ho (by cases claimant <;> rfl))
    · exact .idles
  · exact .idles

theorem State.blankVerify_does (c : Instr) : State.Does c s (State.blankVerify s) := by
  unfold State.blankVerify
  split
  · next claimant e since ho =>
    split
    · refine .works (State.active_of_op ho) ?_
      split
      · exact State.eraseVerified_event ho e.frame
      · exact State.attemptFailed_event ho
    · exact .idles
  · exact .idles

theorem State.quantum_does (c : Instr) : State.Does c s (State.quantum s) := by
  unfold State.quantum
  split
  · next e since ho =>
    split
    · exact .works (State.active_of_op ho) (.proceeds ho rfl)
    · exact .idles
  · exact .idles

theorem State.suspension_does (c : Instr) (elapsed : Nat) (undone : FrameBits) :
    State.Does c s (State.suspension s elapsed undone) := by
  unfold State.suspension
  split
  · next e since _ ho _ =>
    split
    · exact .works (State.active_of_op ho)
        (State.serves_event ho rfl (some { e with progress := e.progress + elapsed }) rfl)
    · exact .idles
  · exact .idles

theorem State.backgroundStart_does (c : Instr) : State.Does c s (State.backgroundStart s) := by
  unfold State.backgroundStart
  split
  · next f rest _ unsuspended queue =>
    split
    · next quiet =>
      obtain ⟨ready, job, -⟩ := (State.quiet_iff s).mp quiet
      have start := WorkView.Event.starts (v := State.view s) (Erase.start f) ready job
      rw [← show (State.view s).ctrl.suspended = none from unsuspended] at start
      exact .works (.inr (.inr (.inr (by simp [queue])))) start
    · exact .idles
  · exact .idles

theorem State.backgroundResume_does (c : Instr) : State.Does c s (State.backgroundResume s) := by
  unfold State.backgroundResume
  split
  · next e _ suspended =>
    split
    · next quiet =>
      obtain ⟨ready, job, -⟩ := (State.quiet_iff s).mp quiet
      have active : s.ctrl ≠ Controller.idle := fun idle => by simp [idle, Controller.idle] at suspended
      exact .works (.inr (.inr (.inl active))) (.starts e ready job)
    · exact .idles
  · exact .idles

/-! ### Dispatches -/

theorem State.dispatch_does (c : Instr) (code : Byte) {run : State → Command → State}
    (h : ∀ t cmd, State.GoesOn t (run t cmd)) : State.Does c s (State.dispatch s code run) := by
  unfold State.dispatch
  split
  · exact .idles
  · next cmd head =>
    obtain ⟨job, -, admits, -, rest, queue⟩ := State.dispatchHead_eq_some.mp head
    exact .works (.inr (.inl (by simp [queue])))
      (.dispatches job (State.part_of_admits admits) ((h _ cmd).of_view rfl))

theorem State.format_does (cut : FrameBits) :
    State.Does (.format cut) s (State.dispatch s 0x4A (State.runFormat cut)) := by
  unfold State.dispatch
  split
  · exact .idles
  · next cmd head =>
    obtain ⟨job, -, admits, -, rest, queue⟩ := State.dispatchHead_eq_some.mp head
    have part : s.part = .ready ∨ s.part = .unformatted ∨ s.part = .faulted := by
      cases part : s.part <;> simp [State.admits, part] at admits ⊢
    exact .formats cut cmd rfl (.inr (.inl (by simp [queue]))) job part rfl

variable (cmd : Command)

theorem State.runIssue_goesOn : State.GoesOn s (State.runIssue s cmd) := by
  unfold State.runIssue
  dsimp only
  split
  · exact State.post_goesOn s cmd _
  · split
    · exact State.post_goesOn s cmd _
    · exact State.post_goesOn s cmd _
    · split
      · exact State.post_goesOn s cmd _
      · split
        · exact State.post_goesOn s cmd _
        · exact State.take_goesOn s cmd _

theorem State.runLookup_goesOn : State.GoesOn s (State.runLookup s cmd) := by
  unfold State.runLookup
  split
  · exact State.post_goesOn s cmd _
  · split
    · exact State.post_goesOn s cmd _
    · exact State.claimStep_goesOn s cmd rfl _

theorem State.runDraw_goesOn : State.GoesOn s (State.runDraw s cmd) := by
  unfold State.runDraw
  split
  · exact State.post_goesOn s cmd _
  · split
    · exact State.post_goesOn s cmd _
    · split
      · exact State.post_goesOn s cmd _
      · exact State.claimStep_goesOn s cmd rfl _

theorem State.runTopup_goesOn : State.GoesOn s (State.runTopup s cmd) := by
  unfold State.runTopup
  split
  · exact State.post_goesOn s cmd _
  · split
    · exact State.post_goesOn s cmd _
    · split
      · exact State.post_goesOn s cmd _
      · exact State.claimStep_goesOn s cmd rfl _

theorem State.runMove_goesOn : State.GoesOn s (State.runMove s cmd) := by
  unfold State.runMove
  split
  · exact State.post_goesOn s cmd _
  · split
    · exact State.post_goesOn s cmd _
    · exact State.claimStep_goesOn s cmd rfl _

theorem State.runRevoke_goesOn : State.GoesOn s (State.runRevoke s cmd) := by
  unfold State.runRevoke
  split
  · exact State.post_goesOn s cmd _
  · exact State.claimStep_goesOn s cmd rfl _

theorem State.runConfigureClass_goesOn : State.GoesOn s (State.runConfigureClass s cmd) := by
  unfold State.runConfigureClass
  dsimp only
  split
  · exact State.post_goesOn s cmd _
  · split
    · exact State.claimStep_goesOn s cmd rfl _
    · exact State.post_goesOn s cmd _
    · exact State.post_goesOn s cmd _

end Events

end Sys2Proof.Machine
end

section
/-! Every step: the work in progress stays coherent (R107, R108, R114, R116, R142, R192), and the part state follows its table
(R142). -/

namespace Sys2Proof.Machine

/-! ### RESTART -/

/-- With background work abandoned no erase is suspended; an operation that still progresses is the one that progressed
(R121). -/
theorem State.abandon_ctrl (s : State) (undone : FrameBits) :
    (State.abandon s undone).ctrl = { s.ctrl with suspended := none } ∨
      (State.abandon s undone).ctrl = { s.ctrl with op := none, suspended := none } := by
  unfold State.abandon
  split
  · exact .inl rfl
  · split
    · exact .inr rfl
    · exact .inl rfl

theorem State.view_abandon (s : State) (undone : FrameBits) :
    State.view (State.abandon s undone) = { State.view s with ctrl := (State.abandon s undone).ctrl } := by
  rw [State.abandon_eq]
  rfl

theorem State.takeRestart_restarted (s : State) (undone : FrameBits) :
    WorkView.Restarted (State.view s) (State.view (State.takeRestart s undone)) := by
  unfold State.takeRestart
  dsimp only
  generalize ht : { s with intake := _ } = t
  have ctrl : t.ctrl = s.ctrl := by rw [← ht]
  have same := State.view_abandon t undone
  rw [show State.view t = { State.view s with restartPending := true } by rw [← ht]; rfl] at same
  split
  · rw [State.view_clearForRestart, show State.portOpen (State.abandon t undone) = _ from congrArg WorkView.isOpen same]
    exact .clears
  · unfold State.serveIfFree
    split
    · next idle =>
      have stops : (State.abandon t undone).ctrl = { s.ctrl with op := none, suspended := none } := by
        rw [← idle, ← ctrl]
        rcases State.abandon_ctrl t undone with h | h <;> rw [h]
      have served := State.serveWaiting_served idle
      rw [same, stops] at served
      exact .serves served
    · next op going =>
      have forgets : (State.abandon t undone).ctrl = { s.ctrl with suspended := none } := by
        rw [← ctrl]
        rcases State.abandon_ctrl t undone with h | h
        · exact h
        · simp [h] at going
      rw [same, forgets]
      exact .forgets

/-- RESTART is taken in a transaction and not while MOUNTING (R178). -/
theorem State.restart_does (s : State) (cut : FrameBits) :
    State.Does (.restart cut) s (State.immediate s 0x08 fun _ => State.restart s cut) := by
  unfold State.immediate
  split
  · next captured transaction =>
    unfold State.restart
    split
    · exact .links ((State.LinkPortOnly.refl s).setTransaction _) fun _ none => by simp [none] at transaction
    · next refused =>
      simp only [Bool.or_eq_true, decide_eq_true_eq, not_or] at refused
      exact .restarts cut rfl (.inl (by simp [transaction])) refused.2 (State.takeRestart_restarted s cut)
  · exact .idles

namespace WorkView

theorem Restarted.isOpen {v u : WorkView} (h : Restarted v u) : u.isOpen = v.isOpen := by
  cases h with
  | clears | forgets => rfl
  | serves h => exact h.kept.isOpen

theorem Restarted.part {v u : WorkView} (h : Restarted v u) :
    u.part = v.part ∧ (u.mount.isSome = true → v.mount.isSome = true) ∨ u.part = .mounting := by
  cases h with
  | clears => exact .inr rfl
  | forgets => exact .inl ⟨rfl, id⟩
  | serves h => exact h.kept.part.imp_right And.right

theorem Restarted.ok {v u : WorkView} (h : Restarted v u) (ok : Ok v) : Ok u := by
  cases h with
  | clears => exact begun_ok _
  | forgets => exact ⟨ok.mounting, ok.waits, fun _ => rfl, ok.idle, ok.formats, ok.mounts⟩
  | serves h => exact h.ok (ok.setPending true)

end WorkView

/-! ### One command or event -/

/-- The link port of a part that takes no transactions does nothing (R181). -/
theorem exec_linkCommand_of_closed {c : Instr} (link : linkCommand c = true) {s t : State} (h : exec c s = .next t)
    (closed : State.portOpen s = false) (none : s.link.transaction = none) : t = s := by
  have ignored (code : Byte) (act : Byte → State × List Byte) : State.immediate s code act = s := by
    simp [State.immediate, none]
  cases c with
  | chipSelectFall => cases h; simp [State.chipSelectFall, closed]
  | submission code tag args crc => cases h; simp [State.submission, none]
  | submissionTruncated bytes => cases h; simp [State.submissionTruncated, none]
  | collect => cases h; simp [State.collect, none]
  | recordShiftedOut => cases h; simp [State.recordShiftedOut, none]
  | status | info | setEpoch | holdClass | releaseClass | cancel => cases h; exact ignored _ _
  | unknownImmediateCommand code =>
    cases h
    split
    · rfl
    · exact ignored _ _
  | transactionEnd => cases h; rw [State.transactionEnd, State.setTransaction, ← none]
  | _ => exact absurd link Bool.false_ne_true

theorem exec_does {c : Instr} {s t : State} (h : exec c s = .next t) : State.Does c s t := by
  have dispatched (code : Byte) {run : State → Command → State} := State.dispatch_does s c code (run := run)
  cases c with
  | powerOn cut => cases h; exact .powers cut rfl
  | resetnAssertion cut =>
    cases h
    unfold State.resetnAssertion
    split
    · exact .holds cut _ (.inr (.inl rfl))
    · exact .idles
  | resetnRelease =>
    cases h
    unfold State.resetnRelease
    split
    · next low => exact .releases rfl (by simp_all)
    · exact .idles
  | powerLoss cut =>
    cases h
    unfold State.powerLoss
    split
    · exact .holds cut _ (.inr (.inr rfl))
    · exact .idles
  | restart cut => cases h; exact State.restart_does s cut
  | issue => cases h; exact dispatched _ State.runIssue_goesOn
  | lookup => cases h; exact dispatched _ State.runLookup_goesOn
  | draw => cases h; exact dispatched _ State.runDraw_goesOn
  | topup => cases h; exact dispatched _ State.runTopup_goesOn
  | move => cases h; exact dispatched _ State.runMove_goesOn
  | revoke => cases h; exact dispatched _ State.runRevoke_goesOn
  | list => cases h; exact dispatched _ fun t cmd => State.post_goesOn t cmd _
  | configureClass => cases h; exact dispatched _ State.runConfigureClass_goesOn
  | purgeOrphans => cases h; exact dispatched _ fun t cmd => State.purgeNext_goesOn t cmd _ _ _
  | format cut => cases h; exact State.format_does s cut
  | readComplete => cases h; exact State.readComplete_does s
  | strikeComplete stuck => cases h; exact State.strikeComplete_does s stuck
  | markerRetirement elapsed stuck => cases h; exact State.markerRetirement_does s _ elapsed stuck
  | bodyErase elapsed stuck => cases h; exact State.stageComplete_does s _ _ _ elapsed stuck
  | markerErase elapsed stuck => cases h; exact State.stageComplete_does s _ _ _ elapsed stuck
  | systemFrameErase elapsed stuck => cases h; exact State.stageComplete_does s _ _ _ elapsed stuck
  | blankVerify => cases h; exact State.blankVerify_does s _
  | quantum => cases h; exact State.quantum_does s _
  | suspension elapsed undone => cases h; exact State.suspension_does s _ elapsed undone
  | backgroundStart => cases h; exact State.backgroundStart_does s _
  | backgroundResume => cases h; exact State.backgroundResume_does s _
  | _ => exact .links (exec_linkPortOnly rfl h) (exec_linkCommand_of_closed rfl h)

/-! ### FORMAT begins and the mount after it -/

/-- FORMAT's dispatch enters FORMATTING with background work abandoned and makes its first claim (R159, R160). -/
theorem State.runFormat_view (s : State) (undone : FrameBits) (cmd : Command) :
    ∃ (j : Job) (k : Claim),
      State.view (State.runFormat undone s cmd) =
        { State.view s with
            part := .formatting, job := some j, ctrl := Controller.claim (State.abandon s undone).ctrl k } := by
  unfold State.runFormat
  rw [State.enterFormatting, State.abandon_eq]
  dsimp only
  split <;> exact ⟨_, _, rfl⟩

theorem State.runFormat_ok {s : State} (ok : WorkView.Ok (State.view s)) (job : s.engine.job = none)
    (part : s.part ≠ .mounting) (undone : FrameBits) (cmd : Command) :
    WorkView.Ok (State.view (State.runFormat undone s cmd)) := by
  obtain ⟨j, k, view⟩ := State.runFormat_view s undone cmd
  have off : s.mount.work = none := ok.work_none part
  obtain ⟨calm, unclaimed⟩ := ok.idle job off
  have abandoned : Controller.foregroundIdle (State.abandon s undone).ctrl := by
    refine ⟨State.abandon_calm calm undone, Eq.trans ?_ unclaimed⟩
    rcases State.abandon_ctrl s undone with h | h <;> rw [h] <;> rfl
  obtain ⟨waits, suspends⟩ :=
    (Controller.GoesOn.claims k).coherent abandoned fun _ => (State.abandon_unreclaiming s undone).1
  rw [view]
  exact ⟨by simp [State.view, off], waits, suspends, by simp, by simp, by simp [State.view, off]⟩

/-- After the format record's strike a mount begins with FORMAT in progress, or with a RESTART pending the part is cleared
(R160, R164). -/
theorem State.formatWritten_view (s : State) (cmd : Command) (f : Formatting) (verified : Bool) :
    State.view (State.formatWritten s cmd f verified) = WorkView.begun (State.portOpen s) ∨
      ∃ f', State.view (State.formatWritten s cmd f verified) =
        { State.view s with
            part := .mounting, job := some { cmd := cmd, step := .formatMount f' }
            mount := some { step := .readFormat, scanned := [] }, ctrl := Controller.claim s.ctrl (.read 0) } := by
  unfold State.formatWritten
  split
  · exact .inl rfl
  · exact .inr ⟨_, rfl⟩

theorem State.formatWritten_ok {s : State} (free : WorkView.Free (State.view s)) (cmd : Command) (f : Formatting)
    (verified : Bool) : WorkView.Ok (State.view (State.formatWritten s cmd f verified)) := by
  rcases State.formatWritten_view s cmd f verified with cleared | ⟨f', mounts⟩
  · rw [cleared]
    exact WorkView.begun_ok _
  · obtain ⟨waits, suspends⟩ := (Controller.GoesOn.claims (.read 0)).coherent free.idle free.suspends
    rw [mounts]
    exact ⟨fun _ => rfl, waits, suspends, by simp, by simp, by simp [EngineStep.mounts]⟩

/-! ### Coherence over one command or event -/

theorem State.heldInReset_workOk (s : State) (undone : FrameBits) (pins : Pins) :
    State.workOk (State.heldInReset s undone pins) := by
  simp [State.workOk, State.mountOk, State.closedOk, State.heldInReset, State.cleared, State.reset, Controller.idle,
    Controller.foregroundIdle, Controller.foregroundBusy, Controller.backgroundBusy]

/-- While RESETN is low nothing is in progress, so the mount at its release begins with nothing else (R192, R193). -/
theorem State.resetnRelease_workOk {s : State} (closed : State.closedOk s) (low : s.pins.resetnLow = true) :
    State.workOk (State.beginMount { s with pins := { powered := true, resetnLow := false } }) := by
  obtain ⟨-, -, job, -, -, ctrl, -⟩ := closed (by simp [State.portOpen, low])
  refine (State.workOk_iff_of_open rfl).mpr ?_
  have view : State.view (State.beginMount { s with pins := { powered := true, resetnLow := false } }) =
      { WorkView.begun true with restartPending := s.intake.restartPending } := by
    simp only [State.view, State.beginMount, job, ctrl]
    rfl
  rw [view]
  exact (WorkView.begun_ok true).setPending _

theorem State.LinkPortOnly.workOk {s t : State} (only : State.LinkPortOnly s t) (work : State.workOk s)
    (closed : State.portOpen s = false → s.link.transaction = none → t = s) : State.workOk t := by
  cases isOpen : State.portOpen s with
  | false =>
    obtain ⟨none, -⟩ := work.2.1 isOpen
    rwa [closed isOpen none]
  | true =>
    have view : State.view t = { State.view s with restartPending := t.intake.restartPending } := by
      simp only [State.view, State.portOpen, only.pins, only.part, only.job, only.mount, only.ctrl]
    refine (State.workOk_iff_of_open (by simpa [State.portOpen, only.pins] using isOpen)).mpr ?_
    rw [view]
    exact (State.view_ok work).setPending _

theorem State.Does.workOk {c : Instr} {s t : State} (does : State.Does c s t) (work : State.workOk s) : State.workOk t := by
  have ok := State.view_ok work
  have ⟨_, closed, _⟩ := work
  have stays_open {t : State} (active : State.Active s) (isOpen : (State.view t).isOpen = (State.view s).isOpen)
      (okT : WorkView.Ok (State.view t)) : State.workOk t :=
    (State.workOk_iff_of_open (isOpen.trans (State.open_of_active closed active))).mpr okT
  cases does with
  | idles => exact work
  | links only shut => exact only.workOk work shut
  | holds cut pins => exact State.heldInReset_workOk s cut pins
  | powers cut => exact (State.workOk_iff_of_open rfl).mpr (WorkView.begun_ok true)
  | releases _ low => exact State.resetnRelease_workOk closed low
  | works active event => exact stays_open active event.kept.isOpen (event.ok ok)
  | restarts _ _ active _ h => exact stays_open active h.isOpen (h.ok ok)
  | @formats u cut cmd _ active job part same =>
    obtain ⟨j, k, view⟩ := State.runFormat_view u cut cmd
    have isOpen : State.portOpen (State.runFormat cut u cmd) = State.portOpen u := congrArg WorkView.isOpen view
    refine stays_open active (isOpen.trans (congrArg WorkView.isOpen same)) ?_
    refine State.runFormat_ok (same ▸ ok) ((congrArg WorkView.job same).trans job) ?_ cut cmd
    rw [show u.part = s.part from congrArg WorkView.part same]
    rintro mounting
    simp [mounting] at part
  | @endsMount u part f _ progressing _ mount same =>
    have free : WorkView.Free (State.view u) := same ▸ ok.free progressing rfl
    have ends := State.mountEnds_view u part
    have isOpen : State.portOpen u = State.portOpen s := congrArg WorkView.isOpen same
    have mounts : u.mount.work = s.mount.work := congrArg WorkView.mount same
    exact stays_open (State.active_of_op progressing) (ends.isOpen.trans isOpen)
      (ends.ok free ((congrArg Option.isSome mounts).trans mount))
  | @records u _ f what cmd fm verified _ progressing _ _ same =>
    have free : WorkView.Free (State.view u) := same ▸ ok.free progressing rfl
    have isOpen : State.portOpen u = State.portOpen s := congrArg WorkView.isOpen same
    refine stays_open (State.active_of_op progressing) (Eq.trans ?_ isOpen)
      (State.formatWritten_ok free cmd fm verified)
    rcases State.formatWritten_view u cmd fm verified with view | ⟨f', view⟩ <;> rw [view] <;> rfl

/-- The part state and the mount stand, or the part is MOUNTING, or no mount is left (R142). -/
theorem State.Does.mountOk {c : Instr} {s t : State} (does : State.Does c s t) (ok : State.mountOk s) : State.mountOk t := by
  have kept {t : State}
      (part : t.part = s.part ∧ (t.mount.work.isSome = true → s.mount.work.isSome = true) ∨ t.part = .mounting) :
      State.mountOk t := fun mount =>
    part.elim (fun ⟨part, work⟩ => part.trans (ok (work mount))) id
  cases does with
  | idles => exact ok
  | links only => exact kept (.inl ⟨only.part, by rw [only.mount]; exact id⟩)
  | holds | powers | releases => exact kept (.inr rfl)
  | works _ event => exact kept (event.kept.part.imp_right And.right)
  | restarts _ _ _ _ h => exact kept h.part
  | @formats u cut cmd _ _ _ part same =>
    obtain ⟨j, k, view⟩ := State.runFormat_view u cut cmd
    have off : s.mount.work = none := State.work_none_of_part ok (by rintro mounting; simp [mounting] at part)
    have work : (State.runFormat cut u cmd).mount.work = u.mount.work := congrArg WorkView.mount view
    have unmounted : u.mount.work = none := (congrArg WorkView.mount same).trans off
    intro mount
    simp [work, unmounted] at mount
  | @endsMount u part => exact (State.mountEnds_view u part).mountOk
  | @records u _ _ _ cmd fm verified =>
    rcases State.formatWritten_view u cmd fm verified with view | ⟨f', view⟩ <;>
      exact kept (.inr (congrArg WorkView.part view))

/-! ### The walk of a mount -/

theorem State.placeFrame_view (s : State) (q : Frame × Placement) :
    State.view (State.placeFrame s q) = State.view s := by
  unfold State.placeFrame
  repeat' split
  all_goals rfl

/-- A tick does nothing, places a frame of the walk, or ends the mount in READY (R156). -/
theorem State.tick_cases (s : State) :
    State.tick s = s ∨
      ∃ w, s.mount.work = some w ∧ w.step = .walk ∧
        ((∃ rest, State.view (State.tick s) = { State.view s with mount := some { w with scanned := rest } }) ∨
          State.tick s = State.mountEnds s .ready) := by
  unfold State.tick
  split
  · next w hw =>
    split
    · next walk =>
      refine .inr ⟨w, hw, walk, ?_⟩
      unfold State.walkOn
      split
      · exact .inr rfl
      · exact .inl ⟨_, State.placeFrame_view _ _⟩
    · exact .inl rfl
  · exact .inl rfl

theorem State.tick_workOk {s : State} (work : State.workOk s) : State.workOk (State.tick s) := by
  have ok := State.view_ok work
  have ⟨_, closed, _⟩ := work
  rcases State.tick_cases s with stays | ⟨w, hw, walk, goes⟩
  · rwa [stays]
  · have idle := (ok.mounts w hw).2 walk
    have free : WorkView.Free (State.view s) :=
      ⟨ok.mounting, idle, ok.suspends, ok.formats, fun _ => (ok.mounts w hw).1⟩
    have mounting : (State.view s).mount.isSome = true := by simp [State.view, hw]
    have isOpen : State.portOpen s = true := by
      by_contra shut
      obtain ⟨-, -, -, -, off, -⟩ := closed (Bool.eq_false_iff.mpr shut)
      exact absurd (hw.symm.trans off) nofun
    rcases goes with ⟨rest, view⟩ | ends
    · refine (State.workOk_iff_of_open ((congrArg WorkView.isOpen view).trans isOpen)).mpr ?_
      rw [view]
      exact (WorkView.MountGoesOn.rests _).ok free mounting
    · have ended := State.mountEnds_view s .ready
      rw [ends]
      exact (State.workOk_iff_of_open (ended.isOpen.trans isOpen)).mpr (ended.ok free mounting)

theorem State.tick_mountOk {s : State} (ok : State.mountOk s) : State.mountOk (State.tick s) := by
  rcases State.tick_cases s with stays | ⟨w, hw, walk, ⟨rest, view⟩ | ends⟩
  · rwa [stays]
  · intro _
    rw [show (State.tick s).part = s.part from congrArg WorkView.part view]
    exact ok (by simp [hw])
  · rw [ends]
    exact (State.mountEnds_view s .ready).mountOk

/-! ### Every step -/

/-- Settles O54: every command and event keeps the mount within MOUNTING and the work coherent, and so does the walk of a
mount. -/
theorem mountAndWorkCoherentKept : Obligations.MountAndWorkCoherentKept := by
  intro s t h
  unfold step at h
  split at h
  · cases h
    exact ⟨State.tick_mountOk, State.tick_workOk⟩
  · next c rest _ =>
    have does := exec_does h
    exact ⟨fun ok => does.mountOk ok, fun work => does.workOk work⟩

/-- The part state changes along a row of its table (R142), `c` being the command or event taken. -/
theorem State.Does.part_cases {c : Instr} {s t : State} (does : State.Does c s t) (changed : t.part ≠ s.part)
    (ok : State.mountOk s) :
    (c = .readComplete ∧ s.part = .mounting ∧ t.link.mounted = true ∧ (t.part = .unformatted ∨ t.part = .faulted)) ∨
      (t.part = .mounting ∧
        ((∃ cut, c = .powerOn cut ∨ c = .resetnAssertion cut ∨ c = .powerLoss cut ∨ c = .restart cut) ∨
          c = .resetnRelease ∨ s.intake.restartPending = true ∨
          ∃ stuck cmd f,
            c = .strikeComplete stuck ∧ s.engine.job = some { cmd := cmd, step := .formatRecord f })) ∨
      (t.part = .formatting ∧ (s.part = .ready ∨ s.part = .unformatted ∨ s.part = .faulted) ∧ ∃ cut, c = .format cut) := by
  cases does with
  | idles => exact absurd rfl changed
  | links only => exact absurd only.part changed
  | holds cut _ reset => exact .inr (.inl ⟨rfl, .inl ⟨cut, reset.imp_right (Or.imp_right Or.inl)⟩⟩)
  | powers cut on => exact .inr (.inl ⟨rfl, .inl ⟨cut, .inl on⟩⟩)
  | releases release => exact .inr (.inl ⟨rfl, .inr (.inl release)⟩)
  | works _ event =>
    obtain ⟨same, -⟩ | ⟨pending, mounting⟩ := event.kept.part
    · exact absurd same changed
    · exact .inr (.inl ⟨mounting, .inr (.inr (.inl pending))⟩)
  | restarts cut restart _ _ h =>
    obtain ⟨same, -⟩ | mounting := h.part
    · exact absurd same changed
    · exact .inr (.inl ⟨mounting, .inl ⟨cut, .inr (.inr (.inr restart))⟩⟩)
  | @formats u cut cmd format _ _ part =>
    obtain ⟨j, k, view⟩ := State.runFormat_view u cut cmd
    exact .inr (.inr ⟨congrArg WorkView.part view, part, cut, format⟩)
  | @endsMount u part f read _ ended mount =>
    have mounting := ok mount
    obtain ⟨same, mounted⟩ | again := State.mountEnds_mounted u part
    · exact .inl ⟨read, mounting, mounted, by rwa [same]⟩
    · exact absurd (again.trans mounting.symm) changed
  | @records u stuck _ _ cmd fm verified strike _ job =>
    refine .inr (.inl ⟨?_, .inr (.inr (.inr ⟨stuck, cmd, fm, strike, job⟩))⟩)
    rcases State.formatWritten_view u cmd fm verified with view | ⟨f', view⟩ <;> exact congrArg WorkView.part view

/-- Settles O56: the walk ends a mount in READY, and any other change of the part state is of the command or event taken. -/
theorem partStateFollowsItsTable : Obligations.PartStateFollowsItsTable := by
  intro s t ok h changed
  unfold step at h
  split at h
  · next queue =>
    cases h
    obtain stays | ⟨w, hw, walk, ⟨rest, view⟩ | ends⟩ := State.tick_cases s
    · exact absurd (congrArg State.part stays) changed
    · exact absurd (congrArg WorkView.part view) changed
    · have mounting := ok (by simp [hw])
      rw [ends] at changed ⊢
      obtain ⟨ready, mounted⟩ | again := State.mountEnds_mounted s .ready
      · exact .inl ⟨mounting, mounted, .inl ⟨queue, ready⟩⟩
      · exact absurd (again.trans mounting.symm) changed
  · next c rest queue =>
    have front : s.pending.head? = some c := by rw [queue]; rfl
    obtain ⟨rfl, mounting, mounted, ended⟩ | row := (exec_does h).part_cases changed ok
    · exact .inl ⟨mounting, mounted, .inr ⟨front, ended⟩⟩
    · exact .inr ⟨c, front, row⟩

end Sys2Proof.Machine
end

section
/-! Duplicate resolution (R9, R154): two candidates of one key have one winner, by the first case that applies. -/

namespace Sys2Proof.Machine

theorem newer_iff (g h : Gen) : newer g h = true ↔ 1 ≤ (g - h).toNat ∧ (g - h).toNat ≤ 32767 := by
  simp [newer]

/-- Of two generations at most one is newer (R9). -/
theorem newer_asymm {g h : Gen} (hgh : newer g h = true) : newer h g = false := by
  refine Bool.eq_false_iff.mpr fun hhg => ?_
  rw [newer_iff] at hgh hhg
  rw [BitVec.toNat_sub] at hgh hhg
  omega

/-- Neither is newer exactly when they are equal or half the range apart (R9). -/
theorem newer_eq_false_of_tied {g h : Gen} (tied : g = h ∨ (g - h).toNat = 32768) : newer g h = false ∧ newer h g = false := by
  have apart : (g - h).toNat = 0 ∨ (g - h).toNat = 32768 := tied.imp_left fun same => by simp [same]
  simp only [← Bool.not_eq_true, newer_iff]
  rw [BitVec.toNat_sub] at apart ⊢
  rw [BitVec.toNat_sub]
  omega

section Winner

variable {p q : Candidate}

/-- A sound candidate wins over a corrupt one (R154, case 1). -/
theorem firstWins_of_sound (hp : p.sound ≠ none) (hq : q.sound = none) : firstWins p q = true := by
  obtain ⟨x, hx⟩ := Option.ne_none_iff_exists'.mp hp
  simp [firstWins, hx, hq]

theorem firstWins_of_corrupt (hp : p.sound = none) (hq : q.sound ≠ none) : firstWins p q = false := by
  obtain ⟨y, hy⟩ := Option.ne_none_iff_exists'.mp hq
  simp [firstWins, hp, hy]

/-- Among candidates both sound or both corrupt the newer generation wins (R154, cases 2 and 4). -/
theorem firstWins_of_newer (same : p.sound = none ↔ q.sound = none) (h : newer p.gen q.gen = true) : firstWins p q = true := by
  cases hp : p.sound <;> cases hq : q.sound <;> simp_all [firstWins]

theorem firstWins_of_older (same : p.sound = none ↔ q.sound = none) (h : newer q.gen p.gen = true) :
    firstWins p q = false := by
  cases hp : p.sound <;> cases hq : q.sound <;> simp_all [firstWins, newer_asymm h]

/-- With neither newer, the fewer remaining units of two sound candidates win (R154, case 3). -/
theorem firstWins_of_units {k l : ClassNo} {r u : Nat} (hp : p.sound = some (k, r)) (hq : q.sound = some (l, u)) (apart : r ≠ u)
    (hpq : newer p.gen q.gen = false) (hqp : newer q.gen p.gen = false) : firstWins p q = decide (r < u) := by
  simp [firstWins, hp, hq, hpq, hqp, apart]

/-- With nothing else between them the lower frame wins (R154, cases 3 and 4). -/
theorem firstWins_of_frame (same : p.sound = none ↔ q.sound = none)
    (equal : ∀ k l r u, p.sound = some (k, r) → q.sound = some (l, u) → r = u)
    (hpq : newer p.gen q.gen = false) (hqp : newer q.gen p.gen = false) : firstWins p q = decide (p.frame < q.frame) := by
  cases hp : p.sound with
  | none => simp [firstWins, hp, same.mp hp, hpq, hqp]
  | some x =>
    have sound : q.sound ≠ none := fun hq => by simp [same.mpr hq] at hp
    obtain ⟨y, hq⟩ := Option.ne_none_iff_exists'.mp sound
    simp [firstWins, hp, hq, hpq, hqp, equal x.1 y.1 x.2 y.2 hp hq]

/-- One of two candidates in different frames wins, whichever is named first. -/
theorem firstWins_swap (frames : p.frame ≠ q.frame) : firstWins p q = !(firstWins q p) := by
  by_cases same : p.sound = none ↔ q.sound = none
  · cases hpq : newer p.gen q.gen with
    | true => rw [firstWins_of_newer same hpq, firstWins_of_older same.symm hpq]; rfl
    | false =>
      cases hqp : newer q.gen p.gen with
      | true => rw [firstWins_of_older same hqp, firstWins_of_newer same.symm hqp]; rfl
      | false =>
        by_cases equal : ∀ k l r u, p.sound = some (k, r) → q.sound = some (l, u) → r = u
        · rw [firstWins_of_frame same equal hpq hqp,
            firstWins_of_frame same.symm (fun k l r u hq hp => (equal l k u r hp hq).symm) hqp hpq]
          simpa [← decide_not] using le_iff_lt_or_eq.trans (or_iff_left frames) |>.symm
        · push Not at equal
          obtain ⟨k, l, r, u, hp, hq, apart⟩ := equal
          rw [firstWins_of_units hp hq apart hpq hqp, firstWins_of_units hq hp apart.symm hqp hpq]
          simp [← decide_not]
          omega
  · cases hp : p.sound with
    | none =>
      have hq : q.sound ≠ none := fun hq => same (iff_of_true hp hq)
      rw [firstWins_of_corrupt hp hq, firstWins_of_sound hq hp]
      rfl
    | some x =>
      have hp : p.sound ≠ none := by simp [hp]
      have hq : q.sound = none := by
        by_contra hq
        exact same (iff_of_false hp hq)
      rw [firstWins_of_sound hp hq, firstWins_of_corrupt hq hp]
      rfl

end Winner

/-- Settles O46, case by case of R154. -/
theorem duplicateResolutionPicksOneWinner : Obligations.DuplicateResolutionPicksOneWinner := by
  intro p q frames
  refine ⟨firstWins_swap frames, firstWins_of_sound,
    fun same => ⟨fun least most => ?_, fun tied => ⟨?_, fun equal lower => ?_⟩⟩⟩
  · exact firstWins_of_newer same ((newer_iff _ _).mpr ⟨least, most⟩)
  · obtain ⟨hpq, hqp⟩ := newer_eq_false_of_tied tied
    intro k l r u hp hq fewer
    rw [firstWins_of_units hp hq (Nat.ne_of_lt fewer) hpq hqp]
    exact decide_eq_true fewer
  · obtain ⟨hpq, hqp⟩ := newer_eq_false_of_tied tied
    rw [firstWins_of_frame same equal hpq hqp]
    exact decide_eq_true lower

end Sys2Proof.Machine
end

section
/-! What a mount goes on to (R146 to R156): its claims, the scan, the resolution and its end, and the completions reported to
it. -/

namespace Sys2Proof.Machine

/-! ### A mount goes on -/

section GoesOn

variable {c : Instr} {s t : State} {w : MountWork}

/-- A mount's claim made after the operation before it ended begins at once (R108, R114). -/
theorem State.mountWaitsFor_of_mountClaim {k : Claim} {op : Op} (hk : Claim.operation k = some op)
    (run : exec c s = .next (State.mountClaim (State.clearOp t) w k)) : State.mountWaitsFor c s t w op := by
  rw [State.mountWaitsFor, run, State.mountClaim_of_idle (s := State.clearOp t) rfl, hk]
  rfl

variable (idle : t.ctrl.op = none)
include idle

theorem State.clearOp_of_idle : State.clearOp t = t := by
  rw [State.clearOp, ← idle]

theorem State.mountResolves_of_resolve {todo winners : List Candidate}
    (run : exec c s = .next (State.resolve t w todo winners)) : State.mountResolves c s t w todo winners := by
  refine ⟨fun distinct => ?_, fun before after p q split distinct hp key => ?_⟩
  · rw [run, State.resolve_of_distinct t w distinct]
    rfl
  · rw [split, State.resolve_of_pair t w distinct hp key] at run
    exact State.mountWaitsFor_of_mountClaim (k := .strike _ _) rfl (by rw [run, State.clearOp_of_idle (by exact idle)]; rfl)

theorem State.mountScans_of_scanFrom {n : Nat} (run : exec c s = .next (State.scanFrom t w n)) :
    State.mountScans c s t w n := by
  refine ⟨fun f next => ?_, fun last => ?_⟩
  · rw [State.scanFrom_of_frame next] at run
    exact State.mountWaitsFor_of_mountClaim (k := .read f) rfl (by rwa [State.clearOp_of_idle idle])
  · rw [State.scanFrom_of_none last] at run
    exact State.mountResolves_of_resolve idle run

theorem State.mountProceeds_of_mountGoesOn {f : Frame} {next : MountNext}
    (run : exec c s = .next (State.mountGoesOn t w f next)) : State.mountProceeds c s t w f next := by
  cases next with
  | scan => exact State.mountScans_of_scanFrom idle run
  | resolve todo winners => exact State.mountResolves_of_resolve idle run

end GoesOn

/-! ### A mount ends -/

/-- With no command in progress the mount ends in its part state, MOUNTED set (R144). -/
theorem State.mountEnds_of_no_job {s : State} (job : s.engine.job = none) (part : PartState) :
    State.mountEnds s part =
      { s with part := part, link := { s.link with mounted := true }, mount := { s.mount with work := none } } := by
  simp [State.mountEnds, job]

/-- The mount that follows a FORMAT posts its result as it ends (R162). -/
theorem State.mountEnds_of_format {s : State} {cmd : Command} {f : Formatting}
    (job : s.engine.job = some { cmd := cmd, step := .formatMount f }) (going : s.intake.restartPending = false)
    (part : PartState) :
    State.mountEnds s part =
      State.posted { s with part := part, link := { s.link with mounted := true }, mount := { s.mount with work := none } } cmd
        (Formatting.result f part) := by
  simp only [State.mountEnds, job]
  exact State.post_of_not_pending (by exact going) cmd _

/-! ### A completion reported to a mount -/

section Reports

variable {s : State} {w : MountWork} (hw : s.mount.work = some w)
include hw

/-- During a mount a READ is reported to it (R108, R109). -/
theorem exec_readComplete_of_mount {f : Frame} (ho : s.ctrl.op = some (.read f)) :
    exec .readComplete s = .next (State.mountRead (State.clearOp s) w f (Memory.image s.array f)) := by
  simp [exec, execReadComplete, State.readComplete, ho, State.reportRead, hw]

/-- During a mount a foreground STRIKE is reported to it, a failure on a system frame having set FAULT_EVENT (R110, R135). -/
theorem exec_strikeComplete_of_mount {f : Frame} {what : Strike} (ho : s.ctrl.op = some (.strike f .foreground what))
    (stuck : FrameBits) {m : Memory} (hm : m = Memory.strike s.array f (Strike.intended what) stuck) {verified : Bool}
    (hv : Strike.verifies what (Memory.image m f) = verified) :
    exec (.strikeComplete stuck) s =
      .next (State.mountStruck (State.systemFailure (State.setArray (State.clearOp s) m) f verified) w f verified) := by
  simp [exec, execStrikeComplete, State.strikeComplete, ho, ← hm, hv, State.reportStrike, State.systemFailure_eq, hw]

/-- During a mount a foreground ERASE that verifies blank is reported to it (R113). -/
theorem exec_blankVerify_of_mount {e : Erase} {since : Nat} (ho : s.ctrl.op = some (.erase .foreground e since))
    (stage : e.stage = .blankVerify) (blank : Image.blank (Memory.image s.array e.frame) = true) :
    exec .blankVerify s = .next (State.mountErased (State.clearOp s) w e.frame true) := by
  simp [exec, execBlankVerify, State.blankVerify, ho, stage, blank, State.eraseVerified, State.reportErase, hw]

/-- A failed retry of a foreground ERASE during a mount is reported to it (R113). -/
theorem exec_attemptFails_of_mount {c : Instr} {t : State} {e : Erase} (h : State.attemptFails s .foreground e c t)
    (retry : e.attempt = .retry) :
    exec c s = .next (State.mountErased (State.systemFailure (State.clearOp t) e.frame false) w e.frame false) := by
  obtain ⟨run, same⟩ := State.exec_of_attemptFails h
  have hwT : t.mount.work = some w := by rw [same]; exact hw
  simp [run, State.attemptFailed, retry, State.eraseFailed, State.reportErase, State.systemFailure_eq, hwT]

end Reports

end Sys2Proof.Machine
end

section
/-! The walk of a mount (R156) and the READs of its system frames (R146 to R148). -/

namespace Sys2Proof.Machine

/-! ### The walk -/

theorem step_of_empty {s : State} (queue : s.pending = []) : step s = .next (State.tick s) := by
  simp [step, queue]

/-- Settles O40: a tick of the walk places its next frame, and the last tick ends the mount. -/
theorem walkPlacesFrames : Obligations.WalkPlacesFrames := by
  intro s queue
  rw [step_of_empty queue]
  refine ⟨fun w f rest p hw walk reached => ?_, fun w hw walk done => ?_, fun other => ?_⟩
  · rw [State.tick_of_walk hw walk, State.walkOn_of_cons s reached]
    refine ⟨?_, ?_, ?_, ?_, ?_⟩
    · rintro rfl; rfl
    · rintro rfl; rfl
    · rintro rfl; rfl
    · rintro c cls units rfl sound
      simp only [State.placeFrame, sound]
      rfl
    · rintro c rfl corrupt
      simp only [State.placeFrame, corrupt]
      rfl
  · rw [State.tick_of_walk hw walk, State.walkOn_of_nil s done]
    refine ⟨fun job => by rw [State.mountEnds_of_no_job job], fun cmd f job going => ?_⟩
    rw [State.mountEnds_of_format job going]
    simp [Formatting.result, plainResult]
  · rw [State.tick_of_none other]

/-! ### The system frames -/

/-- The bad-frame map as read: the grant frames whose marks are struck (R133, R147). -/
theorem Image.mem_badFrames {img : Image} {f : Frame} :
    f ∈ Image.badFrames img ↔ 3 ≤ f.val ∧ markStruck img 0 f.val = true := by
  simp only [Image.badFrames, List.mem_filterMap, List.mem_range]
  constructor
  · rintro ⟨n, lt, found⟩
    simp only [lt, dite_true, Option.ite_none_right_eq_some, Bool.and_eq_true, decide_eq_true_eq, Option.some.injEq] at found
    obtain ⟨⟨grant, struck⟩, rfl⟩ := found
    exact ⟨grant, struck⟩
  · rintro ⟨grant, struck⟩
    exact ⟨f.val, f.isLt, by simp [grant, struck]⟩

theorem Image.badFrames_pairwise (img : Image) : (Image.badFrames img).Pairwise (· < ·) := by
  refine List.pairwise_filterMap.mpr (List.pairwise_lt_range.imp fun {m n} lt f hm g hn => ?_)
  simp only [Option.dite_none_right_eq_some, Option.ite_none_right_eq_some, Option.some.injEq] at hm hn
  obtain ⟨-, -, rfl⟩ := hm
  obtain ⟨-, -, rfl⟩ := hn
  exact lt

theorem getElem_perClass {α : Type} (f : ClassNo → α) (k : ClassNo) : (perClass f)[k] = f k := by
  fin_cases k <;> rfl

theorem startHold_iff (status : ClassStatus) : startHold status = true ↔ ∃ p, status = .set p ∧ p.startHeld = true := by
  cases status <;> simp [startHold]

/-- A FORMAT whose mount does not end in READY ends ARRAY_FAULT (R162). -/
theorem Formatting.result_of_not_ready (f : Formatting) {part : PartState} (unready : part ≠ .ready) :
    Formatting.result f part =
      { outcome := .arrayFault, flags := {}, payload := .format part f.label f.erased f.newlyBad f.systemFailures } := by
  simp [Formatting.result, plainResult, unready]

/-- Settles O37, a READ of frame 0, of frame 2 and of frame 1. -/
theorem mountReadsSystemFrames : Obligations.MountReadsSystemFrames := by
  refine ⟨fun s w ho hw step => ?_, fun s w ho hw step => ?_, fun s w ho hw step => ?_⟩
  · have run := exec_readComplete_of_mount hw ho
    simp only [State.mountRead, step] at run
    intro img ended ends
    have ends_of {part : PartState} (unready : part ≠ .ready)
        (run : exec .readComplete s =
          .next (State.mountEnds (State.setPools (State.clearOp s) { s.pools with bad := [] }) part)) : ends part := by
      refine ⟨fun job => ?_, fun cmd f job going => ?_⟩
      · rw [run, State.mountEnds_of_no_job (by exact job)]
        rfl
      · rw [run, State.mountEnds_of_format (by exact job) (by exact going), Formatting.result_of_not_ready f unready]
        rfl
    refine ⟨fun blank => ends_of (by simp) ?_, fun struck invalid => ends_of (by simp) ?_, fun struck valid => ?_⟩
    · rw [run, State.mountFormat, if_pos blank]
      rfl
    · rw [run, State.mountFormat, if_neg (Bool.eq_false_iff.mp struck), if_neg (Bool.eq_false_iff.mp invalid)]
      rfl
    · rw [State.mountFormat, if_neg (Bool.eq_false_iff.mp struck), if_pos valid] at run
      exact State.mountWaitsFor_of_mountClaim (k := .read 2) rfl run
  · have run := exec_readComplete_of_mount hw ho
    simp only [State.mountRead, step, State.mountMap] at run
    refine ⟨Image.badFrames (Memory.image s.array 2), fun f => Image.mem_badFrames, Image.badFrames_pairwise _, ?_⟩
    generalize Image.badFrames (Memory.image s.array 2) = bad at run ⊢
    exact State.mountWaitsFor_of_mountClaim (k := .read 1) rfl run
  · have run := exec_readComplete_of_mount hw ho
    simp only [State.mountRead, step, State.mountPolicies] at run
    refine ⟨perClass (Image.classStatus (Memory.image s.array 1)), _, fun k => ⟨getElem_perClass _ k, ?_⟩,
      State.mountScans_of_scanFrom rfl run⟩
    rw [getElem_perClass, getElem_perClass]
    exact startHold_iff _

end Sys2Proof.Machine
end

section
/-! The scan of a mount (R149 to R153): how it classifies a frame, which frame it reads next, and what it does with the one
read. -/

namespace Sys2Proof.Machine

/-! ### The classification -/

section Classify

variable {f : Frame} {img : Image}

theorem classify_of_free (phase : phaseOf (img 0) = .blank) (blank : Image.blank img = true) : classify f img = .free := by
  simp [classify, phase, blank]

theorem classify_of_dirty (phase : phaseOf (img 0) = .blank) (struck : Image.blank img = false) : classify f img = .dirty := by
  simp [classify, phase, struck]

theorem classify_of_abandoned (phase : phaseOf (img 0) = .opening) : classify f img = .abandoned := by
  simp [classify, phase]

theorem classify_of_orphan (phase : phaseOf (img 0) = .live) (key : Image.keyPairConsistent img = false) :
    classify f img = .orphan := by
  simp [classify, phase, key]

/-- A LIVE frame with a consistent key pair is a candidate, sound when the rest of R15 holds (R153). -/
theorem classify_of_candidate (phase : phaseOf (img 0) = .live) (key : Image.keyPairConsistent img = true) :
    classify f img =
      .candidate
        { frame := f, marker := img 0, key := Image.key img, gen := Image.gen img
          sound :=
            if Image.sound img then
              some
                ((Image.grant img).cls,
                  (Image.grant img).allowance - max (Image.grant img).countA (Image.grant img).countB)
            else none } := by
  have sound : Image.sound img = (Image.fieldsInRange img && Image.codePasses img) := by simp [Image.sound, phase, key]
  simp [classify, phase, key, sound, Grant.remaining_eq]

theorem classify_of_superseded (phase : phaseOf (img 0) = .moved) : classify f img = .superseded := by
  simp [classify, phase]

theorem classify_of_ended (phase : phaseOf (img 0) = .retired) : classify f img = .ended := by
  simp [classify, phase]

end Classify

theorem Image.blank_eq_false_iff (img : Image) : Image.blank img = false ↔ ¬ ∀ o < 512, img o = 0xFF := by
  rw [← Image.blank_iff, Bool.not_eq_true]

/-! ### The next frame -/

theorem nextFrame_eq_some_iff {bad : List Frame} {n : Nat} {f : Frame} :
    nextFrame bad 2048 n = some f ↔ n ≤ f.val ∧ f ∉ bad ∧ ∀ g : Frame, n ≤ g.val → g < f → g ∈ bad := by
  constructor
  · intro next
    obtain ⟨ge, fine⟩ := nextFrame_eq_some next
    exact ⟨ge, fine, fun g => mem_of_nextFrame_eq_some next⟩
  · rintro ⟨ge, fine, below⟩
    cases next : nextFrame bad 2048 n with
    | none => exact absurd (mem_of_nextFrame_eq_none next (by omega) ge) fine
    | some g =>
      obtain ⟨ge', fine'⟩ := nextFrame_eq_some next
      rcases lt_trichotomy f g with lt | rfl | gt
      · exact absurd (mem_of_nextFrame_eq_some next ge lt) fine
      · rfl
      · exact absurd (below g ge' gt) fine'

theorem nextFrame_eq_none_iff {bad : List Frame} {n : Nat} :
    nextFrame bad 2048 n = none ↔ ∀ g : Frame, n ≤ g.val → g ∈ bad := by
  refine ⟨fun last g => mem_of_nextFrame_eq_none last (by omega), fun all => ?_⟩
  refine Option.eq_none_iff_forall_ne_some.mpr fun f next => ?_
  obtain ⟨ge, fine⟩ := nextFrame_eq_some next
  exact fine (all f ge)

/-! ### The frame read -/

/-- The scan's count of irregular markers after a READ (R150, R157). -/
def MountReport.marked (r : MountReport) (marker : Byte) : MountReport :=
  { r with irregular := r.irregular + (if marker = cleanMarker (phaseOf marker) then 0 else 1) }

/-- The READ of a frame counts an irregular marker, and has it regularised before its classification takes effect (R150). -/
theorem State.scanRead_eq (s : State) (w : MountWork) (f : Frame) (img : Image) :
    State.scanRead s w f img =
      if transitionBits (phaseOf (img 0)) (img 0) = 0 then
        State.scanned (State.setReport s (s.mount.report.marked (img 0))) w f (classify f img)
      else
        State.mountClaim (State.setReport s (s.mount.report.marked (img 0))) { w with step := .regularise (classify f img) }
          (.strike f (markerStrike (transitionBits (phaseOf (img 0)) (img 0)))) := by
  have counted :
      (if irregular (img 0) then State.setReport s { s.mount.report with irregular := s.mount.report.irregular + 1 } else s) =
        State.setReport s (s.mount.report.marked (img 0)) := by
    by_cases clean : img 0 = cleanMarker (phaseOf (img 0))
    · rw [if_neg (by simpa [irregular] using clean), MountReport.marked, if_pos clean]
      rfl
    · rw [if_pos (by simpa [irregular] using clean), MountReport.marked, if_neg clean]
  simp only [State.scanRead, regularisingBits_eq, counted]

theorem transitionBits_blank (marker : Byte) : transitionBits .blank marker = 0 := by
  simp [transitionBits, cleanMarker]

/-- Settles O38. -/
theorem scanClassifiesFrame : Obligations.ScanClassifiesFrame := by
  refine ⟨fun f img => ?_, fun bad n => ⟨fun f => nextFrame_eq_some_iff, nextFrame_eq_none_iff⟩, fun step scanned f p => ?_,
    fun s w f ho hw step => ?_⟩
  · exact ⟨fun phase blank => classify_of_free phase ((Image.blank_iff img).mpr blank),
      fun phase struck => classify_of_dirty phase ((Image.blank_eq_false_iff img).mpr struck), classify_of_abandoned,
      classify_of_orphan, classify_of_candidate, classify_of_superseded, classify_of_ended⟩
  · refine ⟨rfl, ?_, fun other => ?_⟩
    · rintro c rfl
      rfl
    · cases p with
      | candidate c => exact absurd rfl (other c)
      | free | reclaim | quarantine => rfl
  · intro img phase bits report counted placed
    have run := exec_readComplete_of_mount hw ho
    simp only [State.mountRead, step, State.scanRead_eq] at run
    have regular (clean : bits = 0) : exec .readComplete s =
        .next (State.scanned (State.setReport (State.clearOp s) report) w f (classify f img)) := by
      rwa [if_pos clean] at run
    have blankBits (blank : phase = .blank) : bits = 0 := by
      rw [show bits = transitionBits phase (img 0) from rfl, blank, transitionBits_blank]
    have placed_of {found : Scanned} {r : MountReport} {p : Placement} (clean : bits = 0) (kind : classify f img = found)
        (takes : State.scanned (State.setReport (State.clearOp s) report) w f found =
          State.scanFrom (counted r) (MountWork.placed w f p) (f.val + 1)) : placed r p :=
      State.mountScans_of_scanFrom rfl (by rw [regular clean, kind, takes]; rfl)
    refine ⟨fun _ struck => ?_, fun blank standing => ?_, fun blank struck => ?_, fun _ clean => ⟨fun opening => ?_,
      fun live key => ?_, fun live key => ?_, fun ended => ?_⟩⟩
    · rw [if_neg struck] at run
      exact State.mountWaitsFor_of_mountClaim (k := .strike f _) rfl run
    · exact placed_of (blankBits blank) (classify_of_free blank ((Image.blank_iff img).mpr standing)) rfl
    · exact placed_of (blankBits blank) (classify_of_dirty blank ((Image.blank_eq_false_iff img).mpr struck)) rfl
    · rw [classify_of_abandoned opening] at regular
      exact State.mountWaitsFor_of_mountClaim (k := .strike f _) rfl (regular clean)
    · exact placed_of clean (classify_of_orphan live key) rfl
    · exact placed_of clean (classify_of_candidate live key) rfl
    · rcases ended with moved | retired
      · exact placed_of clean (classify_of_superseded moved) rfl
      · exact placed_of clean (classify_of_ended retired) rfl

end Sys2Proof.Machine
end

section
/-! The frames a mount ends (R150 to R152, R155): its regularising, retiring and MOVED strikes, its fallback ERASE and the mark
strike after it. -/

namespace Sys2Proof.Machine

section Ends

variable {s : State} {w : MountWork} (hw : s.mount.work = some w)
include hw

/-- A strike of a grant frame is reported to the mount, with no FAULT_EVENT (R110, R135). -/
theorem exec_strikeComplete_of_mountGrant {f : Frame} {what : Strike} (ho : s.ctrl.op = some (.strike f .foreground what))
    (grant : 3 ≤ f.val) (stuck : FrameBits) :
    exec (.strikeComplete stuck) s =
      .next
        (State.mountStruck
          (State.clearOp { s with array := Memory.strike s.array f (Strike.intended what) stuck }) w f
          (Strike.verifies what (Memory.image (Memory.strike s.array f (Strike.intended what) stuck) f))) := by
  rw [exec_strikeComplete_of_mount hw ho stuck rfl rfl, State.systemFailure_of_grant grant]
  rfl

end Ends

/-- Settles O39. -/
theorem mountEndsFrames : Obligations.MountEndsFrames := by
  intro s w hw ended
  refine ⟨fun f what stuck ho grant => ?_, fun e since next ho stage grant step blank => ?_,
    fun e c t next fails retry grant step => ?_, fun f what stuck next ho step => ?_⟩
  · intro m verified c idle r counted scansOn endsOrErases
    have run : exec c s = .next (State.mountStruck idle w f verified) :=
      exec_strikeComplete_of_mountGrant hw ho grant stuck
    have scans {t : State} {p : Placement} (quiet : t.ctrl.op = none)
        (h : State.mountStruck idle w f verified = State.scanFrom t (MountWork.placed w f p) (f.val + 1)) : scansOn t p :=
      State.mountScans_of_scanFrom quiet (by rw [run, h]; rfl)
    refine ⟨fun found step => ⟨?_, ?_, ?_, ?_⟩, fun step => ⟨?_, ?_⟩, fun next step => ⟨?_, ?_⟩⟩
    · rintro k rfl
      exact scans rfl (by simp only [State.mountStruck, step]; rfl)
    · rintro rfl
      exact scans rfl (by simp only [State.mountStruck, step]; rfl)
    · rintro (rfl | rfl) <;> exact scans rfl (by simp only [State.mountStruck, step]; rfl)
    · rintro rfl
      simp only [State.mountStruck, step] at run
      exact State.mountWaitsFor_of_mountClaim (k := .strike f _) rfl run
    · intro fine
      simp only [State.mountStruck, step, fine, if_true] at run
      exact State.mountProceeds_of_mountGoesOn rfl run
    · intro failed
      simp only [State.mountStruck, step, failed, Bool.false_eq_true, if_false] at run
      exact State.mountWaitsFor_of_mountClaim (k := .erase f) (by rw [Claim.operation, Erase.start_of_grant grant]) run
    · intro fine
      simp only [State.mountStruck, step, fine, if_true] at run
      exact State.mountProceeds_of_mountGoesOn rfl (by cases next <;> exact run)
    · intro failed
      simp only [State.mountStruck, step, failed, Bool.false_eq_true, if_false] at run
      exact State.mountWaitsFor_of_mountClaim (k := .erase f) (by rw [Claim.operation, Erase.start_of_grant grant]) run
  · have run := exec_blankVerify_of_mount hw ho stage blank
    simp only [State.mountErased, step, if_true] at run
    exact State.mountProceeds_of_mountGoesOn rfl (by cases next <;> exact run)
  · have run := exec_attemptFails_of_mount hw fails retry
    simp only [State.mountErased, step, Bool.false_eq_true, if_false, State.systemFailure_of_grant grant] at run
    exact State.mountWaitsFor_of_mountClaim (k := .strike 2 _) rfl run
  · refine ⟨fun verified => ?_, fun failed => ?_⟩
    · have run := exec_strikeComplete_of_mount hw ho stuck rfl verified
      simp only [State.mountStruck, step, if_true, State.systemFailure_of_verified] at run
      exact State.mountProceeds_of_mountGoesOn rfl run
    · have run := exec_strikeComplete_of_mount hw ho stuck rfl failed
      simp only [State.mountStruck, step, Bool.false_eq_true, if_false] at run
      exact State.mountProceeds_of_mountGoesOn rfl (by cases next <;> exact run)

end Sys2Proof.Machine
end

section
/-! FORMAT (R159 to R161): its dispatch, its sweep of the frames, its record and the mount that follows. -/

namespace Sys2Proof.Machine

/-! ### Dispatch -/

/-- Background work abandoned leaves nothing progressing and nothing suspended (R121). -/
theorem State.abandon_of_background {s : State} (background : ∀ op, s.ctrl.op = some op → Op.isBackground op = true)
    (undone : FrameBits) :
    State.abandon s undone =
      { s with array := State.cutArray s undone, ctrl := { s.ctrl with op := none, suspended := none } } := by
  unfold State.abandon State.cutArray
  cases ho : s.ctrl.op with
  | none => simp [ho]
  | some op => simp [background op ho]

/-- Settles O24: background work is abandoned, and the first claim begins at once. -/
theorem formatDispatch : Obligations.FormatDispatch := by
  intro cut s cmd rest job going waiting code part background f
  have admits : State.admits s 0x4A = true := by
    rcases part with part | part | part <;> simp [State.admits, part]
  have head : State.dispatchHead s 0x4A = some cmd :=
    State.dispatchHead_eq_some.mpr ⟨job, going, admits, code, rest, waiting⟩
  have run : exec (.format cut) s = .next (State.runFormat cut (State.headLeft s rest) cmd) := by
    simp only [exec, execFormat]
    rw [State.dispatch_of_head head, waiting]
    rfl
  rw [run, State.runFormat, State.enterFormatting, State.abandon_of_background (s := State.headLeft s rest) background]
  by_cases ready : s.part = .ready
  · rw [if_pos (by exact ready), if_pos ready, if_pos ready]
    exact congrArg _ (State.claimStep_of_idle rfl (k := .erase 0) rfl cmd _)
  · rw [if_neg (by exact ready), if_neg ready, if_neg ready]
    exact congrArg _ (State.claimStep_of_idle rfl (k := .read 2) rfl cmd _)

/-! ### The sweep -/

/-- The sweep goes on from `n`: the ERASE of the next grant frame that is not bad, or after the last the strike of the record
(R160). -/
theorem State.formatSweep_clearOp {c : Instr} {s t : State} {cmd : Command} {fm : Formatting} {n : Nat}
    (run : exec c s = .next (State.formatSweep (State.clearOp t) cmd fm n)) :
    (∀ g : Frame, nextFrame t.pools.bad 2048 n = some g → 3 ≤ g.val →
        exec c s =
          .next
            (State.wentOn t cmd (.formatErase fm)
              (.erase .foreground { frame := g, attempt := .first, stage := .markerRetirement, progress := 0 } 0))) ∧
      (nextFrame t.pools.bad 2048 n = none →
        exec c s =
          .next (State.wentOn t cmd (.formatRecord fm) (.strike 0 .foreground (.field 0 (formatBytes fm.label))))) := by
  refine ⟨fun g next grant => ?_, fun last => ?_⟩
  · rw [run, State.formatSweep, State.clearOp_pools, next]
    exact congrArg _ (State.claimStep_clearOp t (k := .erase g) (by rw [Claim.operation, Erase.start_of_grant grant]) cmd _)
  · rw [run, State.formatSweep, State.clearOp_pools, last]
    exact congrArg _ (State.claimStep_clearOp t (k := .strike 0 _) rfl cmd _)

section Erased

variable (s : State) (cmd : Command) (fm : Formatting)

/-- FORMAT goes on after frame 0 with the ERASE of frame 1 (R160). -/
theorem State.formatErased_of_first (verified : Bool) :
    State.formatErased (State.clearOp s) cmd fm 0 verified =
      State.wentOn s cmd (.formatErase (if verified then fm else { fm with systemFailures := fm.systemFailures + 1 }))
        (.erase .foreground { frame := 1, attempt := .first, stage := .systemErase, progress := 0 } 0) :=
  State.claimStep_clearOp s (k := .erase 1) rfl cmd _

theorem State.formatErased_of_second (verified : Bool) :
    State.formatErased s cmd fm 1 verified =
      State.formatSweep s cmd (if verified then fm else { fm with systemFailures := fm.systemFailures + 1 }) 3 := rfl

variable {g : Frame} (grant : 3 ≤ g.val)
include grant

theorem State.formatErased_of_verified :
    State.formatErased s cmd fm g true = State.formatSweep s cmd { fm with erased := fm.erased + 1 } (g.val + 1) := by
  have : systemFrame g = false := by simpa [systemFrame] using grant
  simp [State.formatErased, this]

theorem State.formatErased_of_failed :
    State.formatErased (State.clearOp s) cmd fm g false =
      State.wentOn s cmd (.formatMark g fm) (.strike 2 .foreground (markStrike g)) := by
  have : systemFrame g = false := by simpa [systemFrame] using grant
  simp only [State.formatErased, this, Bool.false_eq_true, if_false]
  exact State.claimStep_clearOp s (k := .strike 2 _) rfl cmd _

end Erased

/-- After the record's strike a mount begins with FORMAT in progress (R160). -/
theorem State.formatWritten_of_going {s : State} (going : s.intake.restartPending = false) (cmd : Command) (fm : Formatting)
    (verified : Bool) :
    State.formatWritten (State.clearOp s) cmd fm verified =
      { s with
          part := .mounting
          engine :=
            { s.engine with
                job :=
                  some
                    { cmd := cmd
                      step :=
                        .formatMount (if verified then fm else { fm with systemFailures := fm.systemFailures + 1 }) } }
          mount :=
            { s.mount with work := some { step := .readFormat, scanned := [] }, report := MountReport.zero }
          ctrl := { s.ctrl with op := some (.read 0), waiting := none } } := by
  rw [State.formatWritten, if_neg (by simp [going])]
  rfl

/-- A failure on a system frame sets FAULT_EVENT (R135, R136). -/
theorem State.systemFailure_of_failed {f : Frame} (system : f.val < 3) (s : State) :
    State.systemFailure s f false = State.setFaultEvent s := by
  simp [State.systemFailure, systemFrame, system]

/-- Settles O41, one completion after the other. -/
theorem formatSweepsAndMounts : Obligations.FormatSweepsAndMounts := by
  intro s cmd fm off eraseOf sweeps
  refine ⟨fun ho job => ?_, fun e since ho stage job blank => ?_, fun e c t fails retry job => ?_,
    fun g what stuck ho job grant => ?_, fun what stuck ho going job => ?_⟩
  · have run := exec_readComplete_of_job off job ho
    simp only [State.engineRead] at run
    refine ⟨Image.badFrames (Memory.image s.array 2), fun f => Image.mem_badFrames, ?_⟩
    generalize Image.badFrames (Memory.image s.array 2) = bad at run ⊢
    rw [run]
    exact congrArg _ (State.claimStep_clearOp { s with pools := { s.pools with bad := bad } } (k := .erase 0) rfl cmd _)
  · have run := exec_blankVerify_of_job off job ho stage blank
    simp only [State.engineErased] at run
    refine ⟨fun first => ?_, fun second => ?_, fun grant => ?_⟩
    · rw [run, first, State.formatErased_of_first]
      rfl
    · rw [second, State.formatErased_of_second] at run
      exact State.formatSweep_clearOp run
    · rw [State.formatErased_of_verified _ cmd fm grant] at run
      exact State.formatSweep_clearOp run
  · intro failed fault
    have run := exec_attemptFails_of_job off job fails retry
    have sets : State.setFaultEvent (State.clearOp t) = State.clearOp fault := by
      obtain ⟨-, same⟩ := State.exec_of_attemptFails fails
      have link : t.link = s.link := by rw [same]
      rw [State.setFaultEvent, State.clearOp_link, link]
      rfl
    simp only [State.engineErased] at run
    refine ⟨fun first => ?_, fun second => ?_, fun grant => ?_⟩
    · rw [run, first, State.systemFailure_of_failed (by decide), sets]
      exact congrArg _ (State.formatErased_of_first fault cmd fm false)
    · rw [second, State.systemFailure_of_failed (by decide), sets, State.formatErased_of_second] at run
      exact State.formatSweep_clearOp (t := fault) run
    · rw [run, State.systemFailure_of_grant grant]
      exact congrArg _ (State.formatErased_of_failed t cmd fm grant)
  · intro m
    refine ⟨fun verified => ?_, fun failed => ?_⟩
    · have run := exec_strikeComplete_of_job off job ho stuck rfl verified
      rw [State.systemFailure_of_verified] at run
      exact State.formatSweep_clearOp (t := { s with array := m, pools := _ }) run
    · have run := exec_strikeComplete_of_job off job ho stuck rfl failed
      rw [State.systemFailure_of_failed (by decide)] at run
      exact State.formatSweep_clearOp (t := { s with array := m, link := _ }) run
  · intro m mounting
    refine ⟨fun verified => ?_, fun failed => ?_⟩
    · rw [exec_strikeComplete_of_job off job ho stuck rfl verified, State.systemFailure_of_verified]
      exact congrArg _ (State.formatWritten_of_going (s := { s with array := m }) going cmd fm true)
    · rw [exec_strikeComplete_of_job off job ho stuck rfl failed, State.systemFailure_of_failed (by decide)]
      exact congrArg _ (State.formatWritten_of_going (s := State.setFaultEvent { s with array := m }) going cmd fm false)

end Sys2Proof.Machine
end

section
/-! What the command in progress and a mount go on to, whether or not a RESTART is pending (R172, R178, R179): a step, an
operation that they wait for, or the end of the command, at which alone the two differ. -/

namespace Sys2Proof.Machine

set_option Elab.async false

/-! ### A part with a RESTART pending or none -/

/-- The part with a RESTART pending, or with none. -/
def State.withRestart (s : State) (pending : Bool) : State :=
  { s with intake := { s.intake with restartPending := pending } }

theorem State.withRestart_self {s : State} {b : Bool} (h : s.intake.restartPending = b) : State.withRestart s b = s := by
  rw [State.withRestart, ← h]

@[simp] theorem State.withRestart_engine (s : State) (b : Bool) : (State.withRestart s b).engine = s.engine := rfl

@[simp] theorem State.withRestart_pools (s : State) (b : Bool) : (State.withRestart s b).pools = s.pools := rfl

@[simp] theorem State.withRestart_policies (s : State) (b : Bool) : (State.withRestart s b).policies = s.policies := rfl

@[simp] theorem State.withRestart_index (s : State) (b : Bool) : (State.withRestart s b).index = s.index := rfl

@[simp] theorem State.withRestart_ctrl (s : State) (b : Bool) : (State.withRestart s b).ctrl = s.ctrl := rfl

@[simp] theorem State.withRestart_mount (s : State) (b : Bool) : (State.withRestart s b).mount = s.mount := rfl

@[simp] theorem State.withRestart_array (s : State) (b : Bool) : (State.withRestart s b).array = s.array := rfl

@[simp] theorem State.withRestart_freeUses (s : State) (b : Bool) : (State.withRestart s b).freeUses = s.freeUses := rfl

theorem State.setPools_withRestart (s : State) (b : Bool) (p : FramePools) :
    State.setPools (State.withRestart s b) p = State.withRestart (State.setPools s p) b := rfl

theorem State.setIndex_withRestart (s : State) (b : Bool) (index : List Entry) :
    State.setIndex (State.withRestart s b) index = State.withRestart (State.setIndex s index) b := rfl

theorem State.setHeld_withRestart (s : State) (b : Bool) (held : Option Frame) :
    State.setHeld (State.withRestart s b) held = State.withRestart (State.setHeld s held) b := rfl

theorem State.setStatus_withRestart (s : State) (b : Bool) (k : ClassNo) (status : ClassStatus) :
    State.setStatus (State.withRestart s b) k status = State.withRestart (State.setStatus s k status) b := rfl

theorem State.setReport_withRestart (s : State) (b : Bool) (r : MountReport) :
    State.setReport (State.withRestart s b) r = State.withRestart (State.setReport s r) b := rfl

/-! ### What stands around the command in progress -/

/-- What no continuation of a command or a mount touches, but by posting a record or by the clearing for a RESTART. -/
structure Surroundings where
  intake : Intake
  pins : Pins
  transaction : Option Transaction
  pending : List Instr

def State.surroundings (s : State) : Surroundings where
  intake := s.intake
  pins := s.pins
  transaction := s.link.transaction
  pending := s.pending

/-- The command `cmd` goes on from `s`, `run` being the outcome with a RESTART pending or not: it waits at a step; it posts
its record; or it is a FORMAT whose record has been struck, after which a mount begins (R160, R164). -/
inductive State.CarriesOn (s : State) (cmd : Command) (run : Bool → State) : Prop
  | goes {u : State} {step : EngineStep} (around : State.surroundings u = State.surroundings s)
    (job : u.engine.job = some { cmd := cmd, step := step }) (plain : EngineStep.mounts step = false)
    (h : ∀ b, run b = State.withRestart u b) : CarriesOn s cmd run
  | posts {u : State} (r : Result) (around : State.surroundings u = State.surroundings s)
    (h : ∀ b, run b = State.post (State.withRestart u b) cmd r) : CarriesOn s cmd run
  | mounts {u : State} {f : Formatting} (around : State.surroundings u = State.surroundings s)
    (job : u.engine.job = some { cmd := cmd, step := .formatMount f })
    (h : ∀ b, run b = if b then State.clearForRestart u else State.withRestart u b) : CarriesOn s cmd run

/-- What goes on from a state of the same surroundings goes on from this one. -/
theorem State.CarriesOn.of_around {s u : State} {cmd : Command} {run : Bool → State} (h : State.CarriesOn u cmd run)
    (same : State.surroundings u = State.surroundings s) : State.CarriesOn s cmd run := by
  cases h with
  | goes around job plain h => exact .goes (around.trans same) job plain h
  | posts r around h => exact .posts r (around.trans same) h
  | mounts around job h => exact .mounts (around.trans same) job h

section Command

variable (s : State) (cmd : Command)

theorem State.post_carriesOn (r : Result) : State.CarriesOn s cmd fun b => State.post (State.withRestart s b) cmd r :=
  .posts r rfl fun _ => rfl

theorem State.claimStep_carriesOn {step : EngineStep} (plain : EngineStep.mounts step = false) (k : Claim) :
    State.CarriesOn s cmd fun b => State.claimStep (State.withRestart s b) cmd step k :=
  .goes (u := State.claimStep s cmd step k) rfl rfl plain fun _ => rfl

/-! ### Takes and the writing of a new record -/

theorem State.demandNext_carriesOn (w : Writing) :
    State.CarriesOn s cmd fun b => State.demandNext (State.withRestart s b) cmd w := by
  simp only [State.demandNext, State.withRestart_pools]
  split
  · exact State.claimStep_carriesOn s cmd rfl _
  · exact State.post_carriesOn s cmd _

theorem State.demandReclaim_carriesOn (w : Writing) :
    State.CarriesOn s cmd fun b => State.demandReclaim (State.withRestart s b) cmd w := by
  simp only [State.demandReclaim, State.withRestart_ctrl]
  split
  · next e _ =>
    exact .goes (step := .takeErase w)
      (u := { State.goStep s cmd (.takeErase w) with
        ctrl := { s.ctrl with op := some (.erase .foreground e 0), suspended := none } })
      rfl rfl rfl fun _ => rfl
  · next e since _ _ =>
    exact .goes (step := .takeErase w)
      (u := { State.goStep s cmd (.takeErase w) with ctrl := { s.ctrl with op := some (.erase .foreground e since) } })
      rfl rfl rfl fun _ => rfl
  · exact State.claimStep_carriesOn s cmd rfl _
  · exact State.demandNext_carriesOn s cmd w

theorem State.take_carriesOn (w : Writing) : State.CarriesOn s cmd fun b => State.take (State.withRestart s b) cmd w := by
  simp only [State.take, State.withRestart_pools]
  split
  · next f rest _ =>
    exact .goes (u := State.writeInto (State.setPools s { s.pools with free := rest }) cmd w f) (step := .openingStrike w)
      rfl rfl rfl fun _ => rfl
  · exact State.demandReclaim_carriesOn s cmd w

theorem State.newFrameReleased_carriesOn (w : Writing) (f : Frame) (verified : Bool) :
    State.CarriesOn s cmd fun b => State.newFrameReleased (State.withRestart s b) cmd w f verified := by
  simp only [State.newFrameReleased, State.withRestart_pools, State.setPools_withRestart, State.setHeld_withRestart]
  split
  · exact (State.take_carriesOn _ cmd _).of_around rfl
  · exact (State.post_carriesOn _ cmd _).of_around rfl

theorem State.newFrameLive_carriesOn (w : Writing) (f : Frame) :
    State.CarriesOn s cmd fun b => State.newFrameLive (State.withRestart s b) cmd w f := by
  simp only [State.newFrameLive, State.withRestart_index, State.setIndex_withRestart, State.setHeld_withRestart]
  split
  · exact (State.post_carriesOn _ cmd _).of_around rfl
  · exact State.claimStep_carriesOn s cmd rfl _

theorem State.demandErased_carriesOn (w : Writing) (f : Frame) (verified : Bool) :
    State.CarriesOn s cmd fun b => State.demandErased (State.withRestart s b) cmd w f verified := by
  unfold State.demandErased
  split
  · exact .goes
      (u := State.writeInto (State.setPools s { s.pools with reclaim := removeFrame f s.pools.reclaim }) cmd w f)
      (step := .openingStrike w) rfl rfl rfl fun _ => rfl
  · exact State.claimStep_carriesOn s cmd rfl _

/-! ### The end of a grant, and the fallback -/

theorem State.fallback_carriesOn (f : Frame) (fallback lost : Result) :
    State.CarriesOn s cmd fun b => State.fallback (State.withRestart s b) cmd f fallback lost :=
  .goes (u := State.fallback s cmd f fallback lost) (step := .fallbackErase fallback lost) rfl rfl rfl fun _ => rfl

theorem State.movedDone_carriesOn (w : Writing) (o : OldGrant) (new : Frame) (verified : Bool) :
    State.CarriesOn s cmd fun b => State.movedDone (State.withRestart s b) cmd w o new verified := by
  simp only [State.movedDone, State.withRestart_index, State.withRestart_pools, State.setIndex_withRestart,
    State.setPools_withRestart, State.setHeld_withRestart]
  split
  · exact (State.post_carriesOn _ cmd _).of_around rfl
  · exact (State.fallback_carriesOn _ cmd o.frame _ _).of_around rfl

theorem State.retiredDone_carriesOn (e : Ending) (f : Frame) (verified : Bool) :
    State.CarriesOn s cmd fun b => State.retiredDone (State.withRestart s b) cmd e f verified := by
  simp only [State.retiredDone, State.withRestart_index, State.withRestart_pools, State.setIndex_withRestart,
    State.setPools_withRestart]
  split
  · exact (State.post_carriesOn _ cmd _).of_around rfl
  · exact (State.fallback_carriesOn _ cmd f _ _).of_around rfl

theorem State.retire_carriesOn (e : Ending) (f : Frame) (bits : Byte) :
    State.CarriesOn s cmd fun b => State.retire (State.withRestart s b) cmd e f bits := by
  unfold State.retire
  split
  · exact State.retiredDone_carriesOn s cmd e f true
  · exact State.claimStep_carriesOn s cmd rfl _

theorem State.fallbackErased_carriesOn (fallback lost : Result) (f : Frame) (verified : Bool) :
    State.CarriesOn s cmd fun b => State.fallbackErased (State.withRestart s b) cmd fallback lost f verified := by
  simp only [State.fallbackErased, State.withRestart_pools, State.setPools_withRestart, State.setHeld_withRestart]
  split
  · exact (State.post_carriesOn _ cmd _).of_around rfl
  · exact State.claimStep_carriesOn s cmd rfl _

/-! ### READs -/

/-- An unsound READ marks its entry corrupt and ends the command (R32). -/
theorem State.markCorrupt_carriesOn (e : Entry) (img : Image) (r : Result) :
    State.CarriesOn s cmd fun b => State.post (State.markCorrupt (State.withRestart s b) e img) cmd r :=
  (State.post_carriesOn (State.markCorrupt s e img) cmd r).of_around rfl

theorem State.lookupRead_carriesOn (snap : Snapshot) (e : Entry) (f : Frame) (img : Image) :
    State.CarriesOn s cmd fun b => State.lookupRead (State.withRestart s b) cmd snap e f img := by
  simp only [State.lookupRead, State.withRestart_freeUses]
  split
  · exact (State.post_carriesOn { s with freeUses := s.freeUses + 1 } cmd _).of_around rfl
  · exact State.markCorrupt_carriesOn s cmd e img _

theorem State.drawRead_carriesOn (snap : Snapshot) (e : Entry) (f : Frame) (img : Image) :
    State.CarriesOn s cmd fun b => State.drawRead (State.withRestart s b) cmd snap e f img := by
  unfold State.drawRead
  split
  · dsimp only
    split
    · split
      · exact State.post_carriesOn s cmd _
      · split
        · exact State.post_carriesOn s cmd _
        · split
          · exact State.post_carriesOn s cmd _
          · exact State.claimStep_carriesOn s cmd rfl _
    · exact State.post_carriesOn s cmd _
  · exact State.markCorrupt_carriesOn s cmd e img _

theorem State.drawStruckB_carriesOn (d : Drawing) (e : Entry) (verifiedA : Bool) (f : Frame) (verifiedB : Bool) :
    State.CarriesOn s cmd fun b => State.drawStruckB (State.withRestart s b) cmd d e verifiedA f verifiedB := by
  unfold State.drawStruckB
  split
  · exact State.claimStep_carriesOn s cmd rfl _
  · dsimp only
    split
    · exact State.retire_carriesOn s cmd _ f _
    · exact State.post_carriesOn s cmd _

theorem State.drawReadBack_carriesOn (d : Drawing) (e : Entry) (img : Image) :
    State.CarriesOn s cmd fun b => State.drawReadBack (State.withRestart s b) cmd d e img := by
  unfold State.drawReadBack
  split
  · exact State.post_carriesOn s cmd _
  · exact State.markCorrupt_carriesOn s cmd e img _

theorem State.topupRead_carriesOn (snap : Snapshot) (e : Entry) (f : Frame) (img : Image) :
    State.CarriesOn s cmd fun b => State.topupRead (State.withRestart s b) cmd snap e f img := by
  unfold State.topupRead
  split
  · dsimp only
    split
    · split
      · exact State.post_carriesOn s cmd _
      · split
        · exact State.post_carriesOn s cmd _
        · split
          · exact State.post_carriesOn s cmd _
          · exact State.take_carriesOn s cmd _
    · exact State.post_carriesOn s cmd _
  · exact State.markCorrupt_carriesOn s cmd e img _

theorem State.moveRead_carriesOn (e : Entry) (f : Frame) (img : Image) :
    State.CarriesOn s cmd fun b => State.moveRead (State.withRestart s b) cmd e f img := by
  unfold State.moveRead
  split
  · dsimp only
    split
    · exact State.post_carriesOn s cmd _
    · exact State.take_carriesOn s cmd _
  · exact State.markCorrupt_carriesOn s cmd e img _

theorem State.revokeRead_carriesOn (snap : Snapshot) (e : Entry) (f : Frame) (img : Image) :
    State.CarriesOn s cmd fun b => State.revokeRead (State.withRestart s b) cmd snap e f img := by
  unfold State.revokeRead
  dsimp only
  split
  · exact State.retire_carriesOn s cmd _ f _
  · split
    · split
      · split
        · exact State.retire_carriesOn s cmd _ f _
        · exact State.post_carriesOn s cmd _
      · exact State.post_carriesOn s cmd _
    · exact (State.retire_carriesOn (State.markCorrupt s e img) cmd _ f _).of_around rfl

/-! ### CONFIGURE CLASS, PURGE ORPHANS, FORMAT -/

theorem State.configureStruck_carriesOn (k : ClassNo) (p : Policy) (verified : Bool) :
    State.CarriesOn s cmd fun b => State.configureStruck (State.withRestart s b) cmd k p verified := by
  simp only [State.configureStruck, State.setStatus_withRestart]
  split
  · exact (State.post_carriesOn _ cmd _).of_around rfl
  · exact State.claimStep_carriesOn s cmd rfl _

theorem State.purgeNext_carriesOn (members : List Frame) (moved failed : Nat) :
    State.CarriesOn s cmd fun b => State.purgeNext (State.withRestart s b) cmd members moved failed := by
  unfold State.purgeNext
  split
  · exact State.claimStep_carriesOn s cmd rfl _
  · exact State.post_carriesOn s cmd _

theorem State.formatSweep_carriesOn (f : Formatting) (n : Nat) :
    State.CarriesOn s cmd fun b => State.formatSweep (State.withRestart s b) cmd f n := by
  simp only [State.formatSweep, State.withRestart_pools]
  split <;> exact State.claimStep_carriesOn s cmd rfl _

theorem State.formatErased_carriesOn (f : Formatting) (g : Frame) (verified : Bool) :
    State.CarriesOn s cmd fun b => State.formatErased (State.withRestart s b) cmd f g verified := by
  unfold State.formatErased
  split
  · dsimp only
    split
    · exact State.claimStep_carriesOn s cmd rfl _
    · exact State.formatSweep_carriesOn s cmd _ _
  · split
    · exact State.formatSweep_carriesOn s cmd _ _
    · exact State.claimStep_carriesOn s cmd rfl _

theorem State.formatMarked_carriesOn (f : Formatting) (g : Frame) (verified : Bool) :
    State.CarriesOn s cmd fun b => State.formatMarked (State.withRestart s b) cmd f g verified := by
  simp only [State.formatMarked, State.withRestart_pools, State.setPools_withRestart]
  split
  · exact (State.formatSweep_carriesOn _ cmd _ _).of_around rfl
  · exact State.formatSweep_carriesOn s cmd _ _

theorem State.formatWritten_carriesOn (f : Formatting) (verified : Bool) :
    State.CarriesOn s cmd fun b => State.formatWritten (State.withRestart s b) cmd f verified :=
  .mounts (u := State.beginMount (State.goStep s cmd (.formatMount _))) rfl rfl fun b => by cases b <;> rfl

end Command

/-! ### A report to the command in progress -/

/-- What an event does, with a RESTART pending or not: no command moves on, or the command in progress does. -/
inductive State.Evolves (s : State) (run : Bool → State) : Prop
  | rests {u : State} (around : State.surroundings u = State.surroundings s) (job : u.engine.job = s.engine.job)
    (h : ∀ b, run b = State.withRestart u b) : Evolves s run
  | carries {j : Job} (job : s.engine.job = some j) (h : State.CarriesOn s j.cmd run) : Evolves s run

theorem State.Evolves.stays (s : State) : State.Evolves s fun b => State.withRestart s b := .rests rfl rfl fun _ => rfl

/-- What evolves from a state of the same surroundings and command evolves from this one. -/
theorem State.Evolves.of_around {s u : State} {run : Bool → State} (h : State.Evolves u run)
    (same : State.surroundings u = State.surroundings s) (command : u.engine.job = s.engine.job) :
    State.Evolves s run := by
  cases h with
  | rests around job h => exact .rests (around.trans same) (job.trans command) h
  | carries job h => exact .carries (command.symm.trans job) (h.of_around same)

section Report

variable {s : State} {j : Job} (hj : s.engine.job = some j)
include hj

theorem State.engineRead_evolves (f : Frame) (img : Image) :
    State.Evolves s fun b => State.engineRead (State.withRestart s b) j f img := by
  obtain ⟨cmd, step⟩ := j
  cases step <;> dsimp only [State.engineRead]
  case lookupRead snap e => exact .carries hj (State.lookupRead_carriesOn s cmd snap e f img)
  case drawRead snap e => exact .carries hj (State.drawRead_carriesOn s cmd snap e f img)
  case drawReadBack d e => exact .carries hj (State.drawReadBack_carriesOn s cmd d e img)
  case topupRead snap e => exact .carries hj (State.topupRead_carriesOn s cmd snap e f img)
  case moveRead e => exact .carries hj (State.moveRead_carriesOn s cmd e f img)
  case revokeRead snap e => exact .carries hj (State.revokeRead_carriesOn s cmd snap e f img)
  case configureRead k =>
    exact .carries hj ((State.post_carriesOn (State.setStatus s k (Image.classStatus img k)) cmd _).of_around rfl)
  case formatMapRead fm =>
    simp only [State.withRestart_pools, State.setPools_withRestart]
    generalize Image.badFrames img = bad
    exact .carries hj ((State.claimStep_carriesOn _ cmd rfl _).of_around rfl)
  all_goals exact .stays s

theorem State.engineStruck_evolves (f : Frame) (verified : Bool) :
    State.Evolves s fun b => State.engineStruck (State.withRestart s b) j f verified := by
  obtain ⟨cmd, step⟩ := j
  cases step <;> dsimp only [State.engineStruck]
  case drawStrikeA d e => exact .carries hj (State.claimStep_carriesOn s cmd rfl _)
  case drawStrikeB d e verifiedA => exact .carries hj (State.drawStruckB_carriesOn s cmd d e verifiedA f verified)
  case takeMark g w =>
    simp only [State.demandMarked, State.withRestart_pools, State.setPools_withRestart]
    exact .carries hj ((State.demandNext_carriesOn _ cmd w).of_around rfl)
  case openingStrike w => split <;> exact .carries hj (State.claimStep_carriesOn s cmd rfl _)
  case bodyStrike w => split <;> exact .carries hj (State.claimStep_carriesOn s cmd rfl _)
  case liveStrike w =>
    split
    · exact .carries hj (State.newFrameLive_carriesOn s cmd w f)
    · exact .carries hj (State.claimStep_carriesOn s cmd rfl _)
  case newFrameMark g w => exact .carries hj (State.newFrameReleased_carriesOn s cmd w g verified)
  case movedStrike w o new => exact .carries hj (State.movedDone_carriesOn s cmd w o new verified)
  case retiredStrike e => exact .carries hj (State.retiredDone_carriesOn s cmd e f verified)
  case fallbackMark g fallback lost =>
    simp only [State.fallbackMarked, State.withRestart_pools, State.setPools_withRestart, State.setHeld_withRestart]
    exact .carries hj ((State.post_carriesOn _ cmd _).of_around rfl)
  case configureStrike k p => exact .carries hj (State.configureStruck_carriesOn s cmd k p verified)
  case purgeStrike rest moved failed =>
    simp only [State.purgeStruck, State.withRestart_pools, State.setPools_withRestart]
    exact .carries hj ((State.purgeNext_carriesOn _ cmd rest _ _).of_around rfl)
  case formatMark g fm => exact .carries hj (State.formatMarked_carriesOn s cmd fm g verified)
  case formatRecord fm => exact .carries hj (State.formatWritten_carriesOn s cmd fm verified)
  all_goals exact .stays s

theorem State.engineErased_evolves (f : Frame) (verified : Bool) :
    State.Evolves s fun b => State.engineErased (State.withRestart s b) j f verified := by
  obtain ⟨cmd, step⟩ := j
  cases step <;> dsimp only [State.engineErased]
  case takeErase w => exact .carries hj (State.demandErased_carriesOn s cmd w f verified)
  case fallbackErase fallback lost => exact .carries hj (State.fallbackErased_carriesOn s cmd fallback lost f verified)
  case formatErase fm => exact .carries hj (State.formatErased_carriesOn s cmd fm f verified)
  all_goals exact .stays s

end Report

/-! ### A mount goes on -/

/-- A mount goes on, with a RESTART pending or not, and no command moves on. -/
def State.MountRests (s : State) (run : Bool → State) : Prop :=
  ∃ u : State, State.surroundings u = State.surroundings s ∧ u.engine.job = s.engine.job ∧
    ∀ b, run b = State.withRestart u b

theorem State.MountRests.evolves {s : State} {run : Bool → State} (h : State.MountRests s run) : State.Evolves s run := by
  obtain ⟨u, around, job, h⟩ := h
  exact .rests around job h

theorem State.MountRests.stays (s : State) : State.MountRests s fun b => State.withRestart s b := ⟨s, rfl, rfl, fun _ => rfl⟩

theorem State.MountRests.of_around {s u : State} {run : Bool → State} (h : State.MountRests u run)
    (same : State.surroundings u = State.surroundings s) (command : u.engine.job = s.engine.job) :
    State.MountRests s run := by
  obtain ⟨v, around, job, h⟩ := h
  exact ⟨v, around.trans same, job.trans command, h⟩

section Mount

variable (s : State) (w : MountWork)

theorem State.mountClaim_mountRests (k : Claim) :
    State.MountRests s fun b => State.mountClaim (State.withRestart s b) w k :=
  ⟨State.mountClaim s w k, rfl, rfl, fun _ => rfl⟩

theorem State.resolve_mountRests (todo winners : List Candidate) :
    State.MountRests s fun b => State.resolve (State.withRestart s b) w todo winners := by
  induction todo generalizing winners with
  | nil => exact ⟨State.beginWalk s w, rfl, rfl, fun _ => rfl⟩
  | cons q todo ih =>
    simp only [State.resolve, State.withRestart_mount, State.setReport_withRestart]
    split
    · exact ih _
    · exact (State.mountClaim_mountRests _ _ _).of_around rfl rfl

theorem State.scanFrom_mountRests (n : Nat) :
    State.MountRests s fun b => State.scanFrom (State.withRestart s b) w n := by
  simp only [State.scanFrom, State.withRestart_pools]
  split
  · exact State.mountClaim_mountRests s _ _
  · exact State.resolve_mountRests s w _ _

theorem State.scanned_mountRests (f : Frame) (found : Scanned) :
    State.MountRests s fun b => State.scanned (State.withRestart s b) w f found := by
  cases found <;> simp only [State.scanned, State.withRestart_mount, State.setReport_withRestart]
  case dirty => exact (State.scanFrom_mountRests _ _ _).of_around rfl rfl
  case abandoned => exact (State.mountClaim_mountRests _ _ _).of_around rfl rfl
  case orphan => exact (State.scanFrom_mountRests _ _ _).of_around rfl rfl
  all_goals exact State.scanFrom_mountRests s _ _

theorem State.scanRead_mountRests (f : Frame) (img : Image) :
    State.MountRests s fun b => State.scanRead (State.withRestart s b) w f img := by
  simp only [State.scanRead, State.withRestart_mount, State.setReport_withRestart]
  split <;> split
  · exact (State.scanned_mountRests _ w f _).of_around rfl rfl
  · exact State.scanned_mountRests s w f _
  · exact (State.mountClaim_mountRests _ _ _).of_around rfl rfl
  · exact State.mountClaim_mountRests s _ _

theorem State.mountGoesOn_mountRests (f : Frame) (next : MountNext) :
    State.MountRests s fun b => State.mountGoesOn (State.withRestart s b) w f next := by
  cases next with
  | scan => exact State.scanFrom_mountRests s w _
  | resolve todo winners => exact State.resolve_mountRests s w todo winners

theorem State.mountStruck_mountRests (f : Frame) (verified : Bool) :
    State.MountRests s fun b => State.mountStruck (State.withRestart s b) w f verified := by
  obtain ⟨step, scanned⟩ := w
  cases step <;> dsimp only [State.mountStruck]
  case regularise found => exact State.scanned_mountRests s _ f _
  case retire =>
    split
    · exact State.mountGoesOn_mountRests s _ f _
    · exact State.mountClaim_mountRests s _ _
  case movedStrike next =>
    split
    · exact State.mountGoesOn_mountRests s _ f _
    · exact State.mountClaim_mountRests s _ _
  case fallbackMark g next =>
    simp only [State.withRestart_pools, State.setPools_withRestart]
    split
    · exact (State.mountGoesOn_mountRests _ _ g _).of_around rfl rfl
    · exact State.mountGoesOn_mountRests s _ g _
  all_goals exact .stays s

theorem State.mountErased_mountRests (f : Frame) (verified : Bool) :
    State.MountRests s fun b => State.mountErased (State.withRestart s b) w f verified := by
  obtain ⟨step, scanned⟩ := w
  cases step <;> dsimp only [State.mountErased]
  case fallbackErase next =>
    split
    · exact State.mountGoesOn_mountRests s _ f _
    · exact State.mountClaim_mountRests s _ _
  all_goals exact .stays s

/-- The part with its mount ended in a part state (R144). -/
def State.leaveMount (s : State) (part : PartState) : State :=
  { s with part := part, link := { s.link with mounted := true }, mount := { s.mount with work := none } }

/-- The end of a mount posts the record of the FORMAT before it, if there is one (R144, R162). -/
theorem State.mountEnds_evolves (part : PartState) :
    State.Evolves s fun b => State.mountEnds (State.withRestart s b) part := by
  simp only [State.mountEnds, State.withRestart_engine]
  split
  · next cmd f hj => exact .carries hj ((State.post_carriesOn (State.leaveMount s part) cmd _).of_around rfl)
  · exact (State.Evolves.stays (State.leaveMount s part)).of_around rfl rfl

theorem State.mountRead_evolves (f : Frame) (img : Image) :
    State.Evolves s fun b => State.mountRead (State.withRestart s b) w f img := by
  obtain ⟨step, scanned⟩ := w
  cases step <;> dsimp only [State.mountRead]
  case readFormat =>
    simp only [State.mountFormat, State.withRestart_pools, State.setPools_withRestart]
    split
    · exact (State.mountEnds_evolves _ _).of_around rfl rfl
    · split
      · exact
          (State.mountClaim_mountRests { s with mount := { s.mount with label := some (Image.storeLabel img) } } _
            _).evolves.of_around rfl rfl
      · exact (State.mountEnds_evolves _ _).of_around rfl rfl
  case readMap =>
    simp only [State.mountMap, State.withRestart_pools, State.setPools_withRestart]
    generalize Image.badFrames img = bad
    exact (State.mountClaim_mountRests _ _ _).evolves.of_around rfl rfl
  case readPolicies =>
    exact
      (State.scanFrom_mountRests
        { s with
            policies := perClass (Image.classStatus img)
            engine := { s.engine with holds := perClass fun k => startHold (Image.classStatus img k) } }
        _ 3).evolves.of_around rfl rfl
  case scanRead => exact (State.scanRead_mountRests s _ f img).evolves
  all_goals exact .stays s

theorem State.placeFrame_mountRests (q : Frame × Placement) :
    State.MountRests s fun b => State.placeFrame (State.withRestart s b) q := by
  refine ⟨State.placeFrame s q, ?_, ?_, fun b => ?_⟩ <;> (unfold State.placeFrame; repeat' split) <;> rfl

/-- The walk of a mount places a frame or ends the mount (R156). -/
theorem State.tick_evolves : State.Evolves s fun b => State.tick (State.withRestart s b) := by
  simp only [State.tick, State.withRestart_mount]
  split
  · next w hw =>
    split
    · unfold State.walkOn
      split
      · exact State.mountEnds_evolves s .ready
      · next q rest _ =>
        exact
          (State.placeFrame_mountRests { s with mount := { s.mount with work := some { w with scanned := rest } } }
            q).evolves.of_around rfl rfl
    · exact .stays s
  · exact .stays s

end Mount

/-! ### A report to the foreground, and the waiting claim -/

section Reports

variable (s : State)

theorem State.reportRead_evolves (f : Frame) (img : Image) :
    State.Evolves s fun b => State.reportRead (State.withRestart s b) f img := by
  simp only [State.reportRead, State.withRestart_mount, State.withRestart_engine]
  split
  · exact State.mountRead_evolves s _ f img
  · next hj => exact State.engineRead_evolves hj f img
  · exact .stays s

theorem State.reportStrike_evolves (f : Frame) (verified : Bool) :
    State.Evolves s fun b => State.reportStrike (State.withRestart s b) f verified := by
  simp only [State.reportStrike, State.withRestart_mount, State.withRestart_engine]
  split
  · exact (State.mountStruck_mountRests s _ f verified).evolves
  · next hj => exact State.engineStruck_evolves hj f verified
  · exact .stays s

theorem State.reportErase_evolves (f : Frame) (verified : Bool) :
    State.Evolves s fun b => State.reportErase (State.withRestart s b) f verified := by
  simp only [State.reportErase, State.withRestart_mount, State.withRestart_engine]
  split
  · exact (State.mountErased_mountRests s _ f verified).evolves
  · next hj => exact State.engineErased_evolves hj f verified
  · exact .stays s

/-- The part with no claim waiting. -/
def State.unclaimed (s : State) : State := { s with ctrl := { s.ctrl with waiting := none } }

theorem State.serveWaiting_evolves : State.Evolves s fun b => State.serveWaiting (State.withRestart s b) := by
  simp only [State.serveWaiting, State.withRestart_ctrl, State.withRestart_engine]
  split
  · exact .stays s
  · split
    · next cmd w hj => exact .carries hj ((State.take_carriesOn (State.unclaimed s) cmd w).of_around rfl)
    · exact (State.Evolves.stays (State.unclaimed s)).of_around rfl rfl
  · next k _ _ => exact .rests (u := State.claim (State.unclaimed s) k) rfl rfl fun _ => rfl

end Reports

end Sys2Proof.Machine
end

section
/-! The events of the array controller, whether or not a RESTART is pending (R178, R179), and what they do to the command in
progress. -/

namespace Sys2Proof.Machine

set_option Elab.async false

/-! ### The ends of operations -/

section Ends

variable (s : State)

theorem State.backgroundMarked_evolves (verified : Bool) :
    State.Evolves s fun b => State.backgroundMarked (State.withRestart s b) verified := by
  simp only [State.backgroundMarked, State.withRestart_pools, State.setPools_withRestart]
  split
  · exact State.serveWaiting_evolves s
  · exact (State.serveWaiting_evolves _).of_around rfl rfl

/-- A failure on a system frame sets FAULT_EVENT whether or not a RESTART is pending (R136). -/
theorem State.systemFailure_withRestart (s : State) (b : Bool) (f : Frame) (verified : Bool) :
    State.systemFailure (State.withRestart s b) f verified = State.withRestart (State.systemFailure s f verified) b := by
  rw [State.systemFailure_eq, State.systemFailure_eq]
  rfl

theorem State.surroundings_systemFailure (f : Frame) (verified : Bool) :
    State.surroundings (State.systemFailure s f verified) = State.surroundings s := by
  rw [State.systemFailure_eq]
  rfl

theorem State.systemFailure_engine (f : Frame) (verified : Bool) :
    (State.systemFailure s f verified).engine = s.engine := by
  rw [State.systemFailure_eq]

theorem State.eraseVerified_evolves (claimant : Claimant) (f : Frame) :
    State.Evolves s fun b => State.eraseVerified (State.withRestart s b) claimant f := by
  cases claimant with
  | foreground => exact (State.reportErase_evolves (State.clearOp s) f true).of_around rfl rfl
  | background =>
    exact
      (State.serveWaiting_evolves
        (State.setPools (State.clearOp s)
          { s.pools with reclaim := removeFrame f s.pools.reclaim, free := s.pools.free ++ [f] })).of_around rfl rfl

theorem State.eraseFailed_evolves (claimant : Claimant) (f : Frame) :
    State.Evolves s fun b => State.eraseFailed (State.withRestart s b) claimant f := by
  cases claimant with
  | foreground =>
    have reported := State.reportErase_evolves (State.systemFailure (State.clearOp s) f false) f false
    simp only [← State.systemFailure_withRestart] at reported
    exact reported.of_around (State.surroundings_systemFailure _ f false)
      (congrArg Engine.job (State.systemFailure_engine _ f false))
  | background => exact .rests (u := State.setOp s (.strike 2 .background (markStrike f))) rfl rfl fun _ => rfl

theorem State.attemptFailed_evolves (claimant : Claimant) (e : Erase) :
    State.Evolves s fun b => State.attemptFailed (State.withRestart s b) claimant e := by
  simp only [State.attemptFailed, State.withRestart_ctrl]
  split
  · exact State.eraseFailed_evolves s claimant e.frame
  · split
    · exact
        (State.serveWaiting_evolves
          { s with ctrl := { s.ctrl with op := none, suspended := some (Erase.retry e) } }).of_around rfl rfl
    · exact .rests (u := State.setOp s _) rfl rfl fun _ => rfl

theorem State.eraseGoesOn_evolves (m : Memory) (claimant : Claimant) (e : Erase) (since : Nat) (stage : Stage) (elapsed : Nat) :
    State.Evolves s fun b => State.eraseGoesOn (State.withRestart s b) m claimant e since stage elapsed :=
  .rests (u := State.eraseGoesOn s m claimant e since stage elapsed) rfl rfl fun _ => rfl

end Ends

/-! ### The events -/

section Events

variable (s : State)

theorem State.readComplete_evolves : State.Evolves s fun b => State.readComplete (State.withRestart s b) := by
  simp only [State.readComplete, State.withRestart_ctrl]
  split
  · next f _ => exact (State.reportRead_evolves (State.clearOp s) f (Memory.image s.array f)).of_around rfl rfl
  · exact .stays s

theorem State.strikeComplete_evolves (stuck : FrameBits) :
    State.Evolves s fun b => State.strikeComplete (State.withRestart s b) stuck := by
  simp only [State.strikeComplete, State.withRestart_ctrl, State.withRestart_array]
  split
  · next f claimant what _ =>
    generalize Memory.strike s.array f (Strike.intended what) stuck = m
    generalize Strike.verifies what (Memory.image m f) = verified
    have struck (b : Bool) : State.systemFailure (State.setArray (State.clearOp (State.withRestart s b)) m) f verified =
        State.withRestart (State.systemFailure (State.setArray (State.clearOp s) m) f verified) b :=
      State.systemFailure_withRestart (State.setArray (State.clearOp s) m) b f verified
    simp only [struck]
    have around := State.surroundings_systemFailure (State.setArray (State.clearOp s) m) f verified
    have engine := State.systemFailure_engine (State.setArray (State.clearOp s) m) f verified
    split
    · exact (State.reportStrike_evolves _ f verified).of_around around (congrArg Engine.job engine)
    · exact (State.backgroundMarked_evolves _ verified).of_around around (congrArg Engine.job engine)
  · exact .stays s

theorem State.markerRetirement_evolves (elapsed : Nat) (stuck : FrameBits) :
    State.Evolves s fun b => State.markerRetirement (State.withRestart s b) elapsed stuck := by
  dsimp only [State.markerRetirement, State.withRestart_ctrl, State.withRestart_array]
  split
  · next claimant e since _ =>
    split
    · generalize Memory.retireMarker s.array e.frame stuck = m
      split
      · exact State.eraseGoesOn_evolves s m claimant e since .bodyErase elapsed
      · exact (State.attemptFailed_evolves (State.setArray s m) claimant e).of_around rfl rfl
    · exact .stays s
  · exact .stays s

theorem State.stageComplete_evolves (stage next : Stage) (elapsed : Nat) (stuck : FrameBits) :
    State.Evolves s fun b => State.stageComplete (State.withRestart s b) stage next elapsed stuck := by
  simp only [State.stageComplete, State.withRestart_ctrl, State.withRestart_array]
  split
  · split
    · exact State.eraseGoesOn_evolves s _ _ _ _ _ _
    · exact .stays s
  · exact .stays s

theorem State.blankVerify_evolves : State.Evolves s fun b => State.blankVerify (State.withRestart s b) := by
  simp only [State.blankVerify, State.withRestart_ctrl, State.withRestart_array]
  split
  · next e _ _ =>
    split
    · by_cases blank : Image.blank (Memory.image s.array e.frame) = true
      · simp only [blank, if_true]
        exact State.eraseVerified_evolves s _ _
      · simp only [blank, if_false, Bool.false_eq_true]
        exact State.attemptFailed_evolves s _ _
    · exact .stays s
  · exact .stays s

theorem State.quantum_evolves : State.Evolves s fun b => State.quantum (State.withRestart s b) := by
  simp only [State.quantum, State.withRestart_ctrl]
  split
  · next e since _ =>
    split
    · exact .rests (u := State.setOp s (.erase .background { e with progress := e.progress + (400 - since) } 400)) rfl rfl
        fun _ => rfl
    · exact .stays s
  · exact .stays s

theorem State.suspension_evolves (elapsed : Nat) (undone : FrameBits) :
    State.Evolves s fun b => State.suspension (State.withRestart s b) elapsed undone := by
  simp only [State.suspension, State.withRestart_ctrl, State.withRestart_array]
  split
  · next e since _ _ _ =>
    split
    · exact
        (State.serveWaiting_evolves
          { s with
              array := Memory.eraseStage s.array e.frame e.stage undone
              ctrl :=
                { s.ctrl with
                    op := none, suspended := some { e with progress := e.progress + elapsed } } }).of_around rfl rfl
    · exact .stays s
  · exact .stays s

/-- What an event of the array controller does does not depend on a pending RESTART, but at the end of the command. -/
theorem exec_evolves {c : Instr} (event : arrayEvent c) :
    ∃ run, State.Evolves s run ∧ ∀ b, exec c (State.withRestart s b) = .next (run b) := by
  obtain rfl | rfl | rfl | ⟨stuck, rfl⟩ | ⟨elapsed, bits, rfl | rfl | rfl | rfl | rfl⟩ := event
  · exact ⟨_, State.readComplete_evolves s, fun _ => rfl⟩
  · exact ⟨_, State.blankVerify_evolves s, fun _ => rfl⟩
  · exact ⟨_, State.quantum_evolves s, fun _ => rfl⟩
  · exact ⟨_, State.strikeComplete_evolves s stuck, fun _ => rfl⟩
  · exact ⟨_, State.markerRetirement_evolves s elapsed bits, fun _ => rfl⟩
  · exact ⟨_, State.stageComplete_evolves s .bodyErase .markerErase elapsed bits, fun _ => rfl⟩
  · exact ⟨_, State.stageComplete_evolves s .markerErase .blankVerify elapsed bits, fun _ => rfl⟩
  · exact ⟨_, State.stageComplete_evolves s .systemErase .blankVerify elapsed bits, fun _ => rfl⟩
  · exact ⟨_, State.suspension_evolves s elapsed bits, fun _ => rfl⟩

end Events

end Sys2Proof.Machine
end

section
/-! While a RESTART is pending nothing is posted, and the end of the command in progress clears the volatile state (R178, R179). -/

namespace Sys2Proof.Machine

set_option Elab.async false

/-! ### The end of the command in progress -/

/-- No command is in progress but a FORMAT that waits for the mount after it (R160). -/
def State.CommandEnded (s : State) : Prop := ∀ j ∈ s.engine.job, EngineStep.mounts j.step = true

theorem State.commandEnded_of_none {s : State} (job : s.engine.job = none) : State.CommandEnded s := by
  simp [State.CommandEnded, job]

theorem State.commandEnded_iff_of_job {s : State} {j : Job} (job : s.engine.job = some j) :
    State.CommandEnded s ↔ EngineStep.mounts j.step = true := by
  simp [State.CommandEnded, job]

/-- With a RESTART pending an outcome differs from the one without by that alone, or where the command ended by the clearing
(R179). -/
def State.ClearsAtEnd (run : Bool → State) : Prop :=
  (State.CommandEnded (run false) → run true = State.clearForRestart (run false)) ∧
    (¬ State.CommandEnded (run false) → run true = State.withRestart (run false) true)

theorem State.withRestart_withRestart (s : State) (b c : Bool) :
    State.withRestart (State.withRestart s b) c = State.withRestart s c := rfl

/-- The clearing forgets the command in progress and the intake (R179). -/
theorem State.clearForRestart_withRestart (s : State) (b : Bool) :
    State.clearForRestart (State.withRestart s b) = State.clearForRestart s := rfl

theorem State.clearForRestart_posted (s : State) (cmd : Command) (r : Result) :
    State.clearForRestart (State.posted s cmd r) = State.clearForRestart s := rfl

theorem State.clearsAtEnd_of_goes {u : State} {run : Bool → State} (h : ∀ b, run b = State.withRestart u b) {j : Job}
    (job : u.engine.job = some j) (plain : EngineStep.mounts j.step = false) : State.ClearsAtEnd run := by
  refine ⟨fun ended => ?_, fun _ => by rw [h, h, State.withRestart_withRestart]⟩
  rw [h, State.commandEnded_iff_of_job (by exact job), plain] at ended
  exact absurd ended Bool.false_ne_true

theorem State.clearsAtEnd_of_ends {t : State} {run : Bool → State} (without : run false = t)
    (within : run true = State.clearForRestart t) (ended : State.CommandEnded t) : State.ClearsAtEnd run := by
  rw [← without] at within ended
  exact ⟨fun _ => within, fun going => absurd ended going⟩

/-- Posting with no RESTART pending leaves no command in progress, and with one pending clears what it would leave. -/
theorem State.CarriesOn.clearsAtEnd {s : State} {cmd : Command} {run : Bool → State} (h : State.CarriesOn s cmd run) :
    State.ClearsAtEnd run := by
  cases h with
  | goes around job plain h => exact State.clearsAtEnd_of_goes h job plain
  | @posts u r around h =>
    refine State.clearsAtEnd_of_ends (t := State.posted (State.withRestart u false) cmd r) ?_ ?_
      (State.commandEnded_of_none rfl)
    · rw [h, State.post_of_not_pending rfl]
    · rw [h, State.post_of_pending rfl, State.clearForRestart_posted, State.clearForRestart_withRestart,
        State.clearForRestart_withRestart]
  | @mounts u f around job h =>
    refine State.clearsAtEnd_of_ends (t := State.withRestart u false) ?_ ?_
      ((State.commandEnded_iff_of_job (by exact job)).mpr rfl)
    · rw [h, if_neg Bool.false_ne_true]
    · rw [h, if_pos rfl, State.clearForRestart_withRestart]

theorem State.Evolves.clearsAtEnd {s : State} {run : Bool → State} (h : State.Evolves s run) {j : Job}
    (job : s.engine.job = some j) (plain : EngineStep.mounts j.step = false) : State.ClearsAtEnd run := by
  cases h with
  | rests around same h => exact State.clearsAtEnd_of_goes h (same.trans job) plain
  | carries _ h => exact h.clearsAtEnd

/-! ### What no event touches -/

/-- The intake aside, which a post changes, an event that does not clear the part leaves what stands around the command. -/
theorem State.Evolves.around {s : State} {run : Bool → State} (h : State.Evolves s run) :
    (run false).pins = s.pins ∧ (run false).link.transaction = s.link.transaction ∧ (run false).pending = s.pending := by
  have kept {u : State} (around : State.surroundings u = State.surroundings s) :
      u.pins = s.pins ∧ u.link.transaction = s.link.transaction ∧ u.pending = s.pending :=
    ⟨congrArg Surroundings.pins around, congrArg Surroundings.transaction around, congrArg Surroundings.pending around⟩
  cases h with
  | rests around _ h => rw [h false]; exact (kept around :)
  | carries _ h =>
    cases h with
    | goes around _ _ h => rw [h false]; exact (kept around :)
    | posts r around h => rw [h false, State.post_of_not_pending rfl]; exact (kept around :)
    | mounts around _ h => rw [h false, if_neg Bool.false_ne_true]; exact (kept around :)

/-- With a RESTART pending an event posts nothing: the result queue stands, or is cleared (R178). -/
theorem State.Evolves.results {s : State} {run : Bool → State} (h : State.Evolves s run) :
    (run true).intake.results = s.intake.results ∨ (run true).intake.results = [] := by
  cases h with
  | rests around _ h => exact .inl (by rw [h]; exact congrArg (fun a => a.intake.results) around)
  | carries _ h =>
    cases h with
    | goes around _ _ h => exact .inl (by rw [h]; exact congrArg (fun a => a.intake.results) around)
    | posts r _ h => exact .inr (by rw [h, State.post_of_pending rfl]; rfl)
    | mounts _ _ h => exact .inr (by rw [h]; rfl)

/-! ### Commands and events that leave the slots alone -/

/-- Every slot stands as it was (R165): the queues, a pending RESTART and the command in progress. -/
structure State.SlotsStand (s t : State) : Prop where
  intake : t.intake = s.intake
  job : t.engine.job = s.engine.job

theorem State.SlotsStand.refl (s : State) : State.SlotsStand s s := ⟨rfl, rfl⟩

/-- Every slot is FREE and no RESTART is pending (R177, R192). -/
structure State.SlotsFreed (t : State) : Prop where
  intake : t.intake = State.reset.intake
  job : t.engine.job = none

theorem State.heldInReset_slotsFreed (s : State) (cut : FrameBits) (pins : Pins) :
    State.SlotsFreed (State.heldInReset s cut pins) := ⟨rfl, rfl⟩

theorem State.immediate_slotsStand {s : State} (code : Byte) {act : Byte → State × List Byte}
    (h : ∀ captured, State.SlotsStand s (act captured).1) : State.SlotsStand s (State.immediate s code act) := by
  unfold State.immediate
  split
  · exact ⟨(h _).intake, (h _).job⟩
  · exact .refl s

theorem State.changeHold_slotsStand (s : State) (cls : Byte) (hold : Bool) :
    State.SlotsStand s (State.changeHold s cls hold).1 := by
  unfold State.changeHold
  repeat' split
  all_goals exact ⟨rfl, rfl⟩

/-- The commands and events that put no command or record into a slot and take none from it, but by freeing all of them: the
resets, background reclaim's start and resume, and the link commands other than SUBMISSION, CANCEL, RESTART and the end of a
COLLECT. -/
def leavesSlots : Instr → Bool
  | .powerOn _ => true
  | .resetnAssertion _ => true
  | .resetnRelease => true
  | .powerLoss _ => true
  | .chipSelectFall => true
  | .submissionTruncated _ => true
  | .status => true
  | .collect => true
  | .info => true
  | .setEpoch _ => true
  | .holdClass _ => true
  | .releaseClass _ => true
  | .unknownImmediateCommand _ => true
  | .transactionEnd => true
  | .backgroundStart => true
  | .backgroundResume => true
  | _ => false

theorem exec_slots {c : Instr} (hc : leavesSlots c = true) {s t : State} (h : exec c s = .next t) :
    State.SlotsStand s t ∨ State.SlotsFreed t := by
  cases c with
  | powerOn cut => cases h; exact .inr ⟨rfl, rfl⟩
  | resetnAssertion cut =>
    cases h
    unfold State.resetnAssertion
    split
    · exact .inr (State.heldInReset_slotsFreed s cut _)
    · exact .inl (.refl s)
  | resetnRelease =>
    cases h
    unfold State.resetnRelease
    split <;> exact .inl ⟨rfl, rfl⟩
  | powerLoss cut =>
    cases h
    unfold State.powerLoss
    split
    · exact .inr (State.heldInReset_slotsFreed s cut _)
    · exact .inl (.refl s)
  | chipSelectFall =>
    cases h
    unfold State.chipSelectFall
    repeat' split
    all_goals exact .inl ⟨rfl, rfl⟩
  | submissionTruncated bytes =>
    cases h
    unfold State.submissionTruncated
    repeat' split
    all_goals exact .inl ⟨rfl, rfl⟩
  | collect =>
    cases h
    unfold State.collect
    repeat' split
    all_goals exact .inl ⟨rfl, rfl⟩
  | status | info | setEpoch => cases h; exact .inl (State.immediate_slotsStand _ fun _ => ⟨rfl, rfl⟩)
  | holdClass cls | releaseClass cls =>
    cases h; exact .inl (State.immediate_slotsStand _ fun _ => State.changeHold_slotsStand s cls _)
  | unknownImmediateCommand code =>
    cases h
    split
    · exact .inl (.refl s)
    · exact .inl (State.immediate_slotsStand _ fun _ => .refl s)
  | transactionEnd => cases h; exact .inl ⟨rfl, rfl⟩
  | backgroundStart =>
    cases h
    unfold State.backgroundStart
    repeat' split
    all_goals exact .inl ⟨rfl, rfl⟩
  | backgroundResume =>
    cases h
    unfold State.backgroundResume
    repeat' split
    all_goals exact .inl ⟨rfl, rfl⟩
  | _ => exact absurd hc Bool.false_ne_true

/-! ### Nothing is posted -/

section Pending

variable {s : State} (pending : s.intake.restartPending = true)
include pending

/-- While a RESTART is pending nothing is dispatched (R170). -/
theorem State.dispatch_of_pending (code : Byte) (run : State → Command → State) : State.dispatch s code run = s := by
  refine State.dispatch_of_none (Option.eq_none_iff_forall_not_mem.mpr fun cmd head => ?_) run
  obtain ⟨-, going, -⟩ := State.dispatchHead_eq_some.mp head
  simp [pending] at going

theorem State.cancel_of_pending (tag : Byte) : (State.cancel s tag).1.intake = s.intake := by
  simp [State.cancel, State.cancelOutcome, pending]

theorem State.restart_of_pending (cut : FrameBits) : State.restart s cut = (s, [Code.byte .notReady]) := by
  simp [State.restart, pending]

theorem State.submission_of_pending (code tag : Byte) (args : List Byte) (crc : Word) :
    (State.submission s code tag args crc).intake = s.intake := by
  have refused : State.decide s code tag args crc ≠ .accepted := by
    unfold State.decide
    split
    · nofun
    · split
      · nofun
      · split
        · nofun
        · simp [pending]
  unfold State.submission
  split
  · split
    · dsimp only
      rw [if_neg refused]
    · rfl
  · rfl

/-- While a RESTART is pending no event posts a record (R178). -/
theorem State.results_of_event {c : Instr} (event : arrayEvent c) {t : State} (h : exec c s = .next t) :
    t.intake.results = s.intake.results ∨ t.intake.results = [] := by
  obtain ⟨run, evolves, runs⟩ := exec_evolves s event
  have same := runs true
  rw [State.withRestart_self pending, h] at same
  cases same
  exact evolves.results

end Pending

/-- What a part with a RESTART pending does to its result queue: it stands, or is cleared. -/
def State.PostsNothing (s t : State) : Prop := t.intake.results = s.intake.results ∨ t.intake.results = []

theorem State.postsNothing_of_intake {s t : State} (h : t.intake = s.intake) : State.PostsNothing s t :=
  .inl (congrArg Intake.results h)

theorem State.immediate_postsNothing {s : State} (code : Byte) {act : Byte → State × List Byte}
    (h : ∀ captured, (act captured).1.intake = s.intake) : State.PostsNothing s (State.immediate s code act) := by
  unfold State.immediate
  split
  · exact State.postsNothing_of_intake (h _)
  · exact .inl rfl

/-- While a RESTART is pending no command or event posts a record; the shifting out of one takes it away (R178, R190). -/
theorem exec_postsNothing {s t : State} {c : Instr} (pending : s.intake.restartPending = true)
    (other : c ≠ .recordShiftedOut) (h : exec c s = .next t) : State.PostsNothing s t := by
  have dispatched (code : Byte) (run : State → Command → State) : State.PostsNothing s (State.dispatch s code run) := by
    rw [State.dispatch_of_pending pending]
    exact .inl rfl
  cases c with
  | submission code tag args crc =>
    cases h; exact State.postsNothing_of_intake (State.submission_of_pending pending code tag args crc)
  | recordShiftedOut => exact absurd rfl other
  | cancel tag => cases h; exact State.immediate_postsNothing _ fun _ => State.cancel_of_pending pending tag
  | restart cut => cases h; exact State.immediate_postsNothing _ fun _ => by rw [State.restart_of_pending pending]
  | issue | lookup | draw | topup | move | revoke | list | configureClass | purgeOrphans | format =>
    cases h; exact dispatched _ _
  | readComplete | blankVerify | quantum | strikeComplete | markerRetirement | bodyErase | markerErase | systemFrameErase
    | suspension =>
    exact State.results_of_event pending (by simp [arrayEvent]) h
  | _ =>
    obtain stand | freed := exec_slots rfl h
    · exact State.postsNothing_of_intake stand.intake
    · exact .inr (congrArg Intake.results freed.intake)

/-- Settles O5: no step posts a record, and the outcome of an event with a RESTART pending is the one without, or where the
command ends the clearing. -/
theorem pendingRestartEndsInClearing : Obligations.PendingRestartEndsInClearing := by
  refine ⟨fun s t pending front h => ?_, fun s t c j event pending _ job plain h => ?_⟩
  · unfold step at h
    split at h
    · cases h
      have evolves := (State.tick_evolves s).results
      rwa [State.withRestart_self pending] at evolves
    · next c rest queue =>
      exact exec_postsNothing (s := { s with pending := rest }) pending (fun c => front (by rw [queue, c]; rfl)) h
  · obtain ⟨run, evolves, runs⟩ := exec_evolves s event
    have within : exec c s = .next (run true) := by rw [← runs, State.withRestart_self pending]
    obtain rfl : run false = t := Host.Outcome.next.inj ((runs false).symm.trans h)
    obtain ⟨clears, goes⟩ := evolves.clearsAtEnd job plain
    obtain ⟨pins, transaction, queue⟩ := evolves.around
    rw [within, ← pins, ← transaction, ← queue]
    refine ⟨fun off => congrArg _ (clears (State.commandEnded_of_none off)),
      fun j' job' => ⟨fun mounts => ?_, fun going => ?_⟩⟩
    · exact congrArg _ (clears ((State.commandEnded_iff_of_job job').mpr mounts))
    · exact congrArg _ (goes fun ended => by simp [(State.commandEnded_iff_of_job job').mp ended] at going)

end Sys2Proof.Machine
end

section
/-! At most eight slots in use and no tag shared (R165, R166): every command and event but SUBMISSION leaves the tags in use as
they were, up to their order, or takes some away. -/

namespace Sys2Proof.Machine

set_option Elab.async false

/-! ### The tags in use -/

/-- The tags of the commands that hold a slot, with a command in progress or none. -/
def tagsHeld (i : Intake) (executing : Option Command) : List Byte :=
  i.results.map (fun r => r.cmd.tag) ++ executing.toList.map (fun c => c.tag) ++ i.waiting.map fun c => c.tag

theorem State.tagsInUse_eq (s : State) : State.tagsInUse s = tagsHeld s.intake (State.inProgress s) := rfl

theorem State.tagsInUse_of_job {s : State} {j : Job} (job : s.engine.job = some j) :
    State.tagsInUse s = tagsHeld s.intake (some j.cmd) := by
  simp [State.tagsInUse_eq, State.inProgress, job]

theorem State.tagsInUse_of_idle {s : State} (job : s.engine.job = none) : State.tagsInUse s = tagsHeld s.intake none := by
  simp [State.tagsInUse_eq, State.inProgress, job]

/-- Every slot in use holds one command, and each has its tag (R165). -/
theorem State.length_tagsInUse (s : State) : (State.tagsInUse s).length = State.slotsInUse s := by
  simp [State.tagsInUse, State.slotsInUse, Nat.add_assoc]

/-- Every tag in use in `t` was in use in `s`, once more at least for every time. -/
abbrev State.TagsWithin (s t : State) : Prop := (State.tagsInUse t).Subperm (State.tagsInUse s)

theorem State.TagsWithin.slotsOk {s t : State} (h : State.TagsWithin s t) (ok : State.slotsOk s) : State.slotsOk t := by
  obtain ⟨bound, distinct⟩ := ok
  obtain ⟨tags, same, sub⟩ := h
  have fewer : (State.tagsInUse t).length ≤ (State.tagsInUse s).length := same.length_eq ▸ sub.length_le
  rw [State.length_tagsInUse, State.length_tagsInUse] at fewer
  exact ⟨fewer.trans bound, same.nodup_iff.mp (distinct.sublist sub)⟩

theorem State.tagsWithin_of_eq {s t : State} (h : State.tagsInUse t = State.tagsInUse s) : State.TagsWithin s t := by
  rw [State.TagsWithin, h]

theorem State.tagsWithin_of_nil {s t : State} (h : State.tagsInUse t = []) : State.TagsWithin s t := by
  rw [State.TagsWithin, h]
  exact List.nil_subperm

theorem State.SlotsStand.tagsInUse {s t : State} (h : State.SlotsStand s t) : State.tagsInUse t = State.tagsInUse s := by
  rw [State.tagsInUse_eq, State.tagsInUse_eq, State.inProgress, State.inProgress, h.intake, h.job]

theorem State.SlotsFreed.tagsInUse {t : State} (h : State.SlotsFreed t) : State.tagsInUse t = [] := by
  rw [State.tagsInUse_of_idle h.job, h.intake]
  rfl

theorem State.tagsInUse_clearForRestart (s : State) : State.tagsInUse (State.clearForRestart s) = [] := rfl

/-! ### The command in progress goes on, or ends -/

/-- The command that goes on keeps its slot, or its record takes it (R172); the clearing for a RESTART frees all of them. -/
theorem State.CarriesOn.tags {s : State} {cmd : Command} {run : Bool → State} (h : State.CarriesOn s cmd run) (b : Bool) :
    State.tagsInUse (run b) = tagsHeld s.intake (some cmd) ∨ State.tagsInUse (run b) = [] := by
  have kept {u : State} {step : EngineStep} (around : State.surroundings u = State.surroundings s)
      (job : u.engine.job = some { cmd := cmd, step := step }) :
      State.tagsInUse (State.withRestart u b) = tagsHeld s.intake (some cmd) := by
    rw [← show u.intake = s.intake from congrArg Surroundings.intake around]
    exact State.tagsInUse_of_job (s := State.withRestart u b) job
  cases h with
  | goes around job plain h => exact .inl (h b ▸ kept around job)
  | @posts u r around h =>
    have intake : u.intake = s.intake := congrArg Surroundings.intake around
    cases b with
    | true => exact .inr (by rw [h, State.post_of_pending rfl, State.tagsInUse_clearForRestart])
    | false =>
      rw [h, State.post_of_not_pending rfl, State.tagsInUse_of_idle rfl, ← intake]
      exact .inl (by simp [State.posted, State.withRestart, tagsHeld])
  | mounts around job h =>
    cases b with
    | true => exact .inr (by rw [h, if_pos rfl, State.tagsInUse_clearForRestart])
    | false => exact .inl (by rw [h, if_neg Bool.false_ne_true, kept around job])

theorem State.Evolves.tagsWithin {s : State} {run : Bool → State} (h : State.Evolves s run) (b : Bool) :
    State.TagsWithin s (run b) := by
  cases h with
  | @rests u around job h =>
    have stand : State.SlotsStand s u := ⟨congrArg Surroundings.intake around, job⟩
    rw [h]
    exact State.tagsWithin_of_eq stand.tagsInUse
  | carries job h =>
    obtain same | freed := h.tags b
    · exact State.tagsWithin_of_eq (same.trans (State.tagsInUse_of_job job).symm)
    · exact State.tagsWithin_of_nil freed

theorem State.serveWaiting_tagsWithin (s : State) : State.TagsWithin s (State.serveWaiting s) := by
  have h := (State.serveWaiting_evolves s).tagsWithin s.intake.restartPending
  rwa [State.withRestart_self rfl] at h

/-! ### Dispatches -/

section Dispatches

variable (s : State) (cmd : Command)

theorem State.runIssue_carriesOn : State.CarriesOn s cmd fun b => State.runIssue (State.withRestart s b) cmd := by
  simp only [State.runIssue, State.withRestart_policies, State.withRestart_index]
  split
  · exact State.post_carriesOn s cmd _
  · next r _ =>
    cases status : s.policies[r.cls] with
    | unconfigured | faulted =>
      simp only [status]
      exact State.post_carriesOn s cmd _
    | set p =>
      simp only [status]
      split
      · exact State.post_carriesOn s cmd _
      · split
        · exact State.post_carriesOn s cmd _
        · exact State.take_carriesOn s cmd _

theorem State.snapshot_withRestart (b : Bool) : State.snapshot (State.withRestart s b) = State.snapshot s := rfl

/-- A READ through an entry is claimed, its step keeping the values it needs (R46). -/
theorem State.readEntry_carriesOn {step : EngineStep} (plain : EngineStep.mounts step = false) (e : Entry) :
    State.CarriesOn s cmd fun b => State.readEntry (State.withRestart s b) cmd e step :=
  State.claimStep_carriesOn s cmd plain _

theorem State.runLookup_carriesOn : State.CarriesOn s cmd fun b => State.runLookup (State.withRestart s b) cmd := by
  simp only [State.runLookup, State.withRestart_index, State.snapshot_withRestart]
  split
  · exact State.post_carriesOn s cmd _
  · split
    · exact State.post_carriesOn s cmd _
    · exact State.readEntry_carriesOn s cmd rfl _

theorem State.runDraw_carriesOn : State.CarriesOn s cmd fun b => State.runDraw (State.withRestart s b) cmd := by
  simp only [State.runDraw, State.withRestart_index, State.snapshot_withRestart]
  split
  · exact State.post_carriesOn s cmd _
  · split
    · exact State.post_carriesOn s cmd _
    · split
      · exact State.post_carriesOn s cmd _
      · exact State.readEntry_carriesOn s cmd rfl _

theorem State.runTopup_carriesOn : State.CarriesOn s cmd fun b => State.runTopup (State.withRestart s b) cmd := by
  simp only [State.runTopup, State.withRestart_index, State.snapshot_withRestart]
  split
  · exact State.post_carriesOn s cmd _
  · split
    · exact State.post_carriesOn s cmd _
    · split
      · exact State.post_carriesOn s cmd _
      · exact State.readEntry_carriesOn s cmd rfl _

theorem State.runMove_carriesOn : State.CarriesOn s cmd fun b => State.runMove (State.withRestart s b) cmd := by
  simp only [State.runMove, State.withRestart_index]
  split
  · exact State.post_carriesOn s cmd _
  · split
    · exact State.post_carriesOn s cmd _
    · exact State.readEntry_carriesOn s cmd rfl _

theorem State.runRevoke_carriesOn : State.CarriesOn s cmd fun b => State.runRevoke (State.withRestart s b) cmd := by
  simp only [State.runRevoke, State.withRestart_index, State.snapshot_withRestart]
  split
  · exact State.post_carriesOn s cmd _
  · exact State.readEntry_carriesOn s cmd rfl _

theorem State.runList_carriesOn : State.CarriesOn s cmd fun b => State.runList (State.withRestart s b) cmd :=
  State.post_carriesOn s cmd
    { outcome := .done
      flags := { more := 16 < (selectedEntries s.index cmd.key).length }
      payload := .list ((selectedEntries s.index cmd.key).take 16) }

theorem State.runConfigureClass_carriesOn :
    State.CarriesOn s cmd fun b => State.runConfigureClass (State.withRestart s b) cmd := by
  simp only [State.runConfigureClass, State.withRestart_policies]
  split
  · exact State.post_carriesOn s cmd _
  · next k p _ =>
    cases status : s.policies[k] with
    | unconfigured =>
      simp only [status]
      exact State.claimStep_carriesOn s cmd rfl _
    | set | faulted =>
      simp only [status]
      exact State.post_carriesOn s cmd _

theorem State.runPurgeOrphans_carriesOn :
    State.CarriesOn s cmd fun b => State.runPurgeOrphans (State.withRestart s b) cmd := by
  simp only [State.runPurgeOrphans, State.withRestart_pools]
  exact State.purgeNext_carriesOn s cmd _ _ _

/-- FORMAT's dispatch cancels the waiting commands, whose records take their slots (R159). -/
theorem State.tagsInUse_runFormat (undone : FrameBits) :
    (State.tagsInUse (State.runFormat undone s cmd)).Perm (tagsHeld s.intake (some cmd)) := by
  have tags : State.tagsInUse (State.runFormat undone s cmd) =
      s.intake.results.map (fun r => r.cmd.tag) ++ s.intake.waiting.map (fun c => c.tag) ++ [cmd.tag] := by
    unfold State.runFormat State.enterFormatting
    rw [State.abandon_eq]
    dsimp only
    split <;>
      simp [State.tagsInUse, State.inProgress, cancelledRecord, Function.comp_def]
  rw [tags, tagsHeld, List.append_assoc, List.append_assoc]
  exact List.perm_append_comm.append_left _

end Dispatches

/-- A dispatch moves the head's command, with its slot, to the engine (R169, R170). -/
theorem State.dispatch_tagsWithin {s : State} {run : State → Command → State}
    (h : ∀ t cmd, (State.tagsInUse (run t cmd)).Subperm (tagsHeld t.intake (some cmd))) (code : Byte) :
    State.TagsWithin s (State.dispatch s code run) := by
  cases head : State.dispatchHead s code with
  | none => exact State.tagsWithin_of_eq (by rw [State.dispatch_of_none head])
  | some cmd =>
    obtain ⟨job, -, -, -, rest, waiting⟩ := State.dispatchHead_eq_some.mp head
    rw [State.dispatch_of_head head, State.TagsWithin, State.tagsInUse_of_idle job]
    have same : tagsHeld { s.intake with waiting := s.intake.waiting.tail } (some cmd) = tagsHeld s.intake none := by
      simp [tagsHeld, waiting]
    exact same ▸ h _ cmd

theorem State.dispatch_tagsWithin_of_carriesOn {s : State} {run : State → Command → State}
    (h : ∀ t cmd, State.CarriesOn t cmd fun b => run (State.withRestart t b) cmd) (code : Byte) :
    State.TagsWithin s (State.dispatch s code run) := by
  refine State.dispatch_tagsWithin (fun t cmd => ?_) code
  have goes := (h t cmd).tags t.intake.restartPending
  rw [State.withRestart_self rfl] at goes
  obtain same | freed := goes
  · rw [same]
  · rw [freed]
    exact List.nil_subperm

/-! ### The link port -/

/-- An accepted submission finds a slot FREE and its tag not in use (R167, R186). -/
theorem State.free_of_accepted {s : State} {code tag : Byte} {args : List Byte} {crc : Word}
    (accepted : State.decide s code tag args crc = .accepted) : State.slotsInUse s < 8 ∧ tag ∉ State.tagsInUse s := by
  unfold State.decide at accepted
  split at accepted
  · cases accepted
  · split at accepted
    · cases accepted
    · repeat' split at accepted
      all_goals simp_all

theorem State.accept_slotsOk {s : State} (ok : State.slotsOk s) {cmd : Command} (free : State.slotsInUse s < 8)
    (unused : cmd.tag ∉ State.tagsInUse s) : State.slotsOk (State.accept s cmd) := by
  have tags : State.tagsInUse (State.accept s cmd) = State.tagsInUse s ++ [cmd.tag] := by
    simp [State.tagsInUse, State.inProgress]
  rw [State.slotsOk, ← State.length_tagsInUse, tags, List.length_append, State.length_tagsInUse, List.nodup_append]
  refine ⟨free, ok.2, List.nodup_singleton _, fun a used b hb => ?_⟩
  rintro rfl
  exact unused (List.mem_singleton.mp hb ▸ used)

/-- A submission leaves the slots, or is accepted with a slot FREE and its tag not in use (R167, R186). -/
theorem State.submission_slotsOk {s : State} (ok : State.slotsOk s) (code tag : Byte) (args : List Byte) (crc : Word) :
    State.slotsOk (State.submission s code tag args crc) := by
  unfold State.submission
  split
  · split
    · dsimp only
      split
      · next accepted =>
        obtain ⟨free, unused⟩ := State.free_of_accepted accepted
        exact State.accept_slotsOk ok free unused
      · exact ok
    · exact ok
  · exact ok

/-- The waiting commands of a tag and the others are all of them, whatever their order. -/
theorem waiting_split_perm (waiting : List Command) (tag : Byte) :
    ((waiting.filter fun c => c.tag = tag) ++ waiting.filter fun c => c.tag ≠ tag).Perm waiting := by
  simpa using List.filter_append_perm (fun c : Command => c.tag = tag) waiting

/-- CANCEL's record takes the slot of the command it takes out (R175). -/
theorem State.cancel_tagsWithin (s : State) (tag : Byte) : State.TagsWithin s (State.cancel s tag).1 := by
  unfold State.cancel
  dsimp only
  split
  · refine List.Perm.subperm ?_
    have moved := (waiting_split_perm s.intake.waiting tag).map fun c => c.tag
    rw [List.map_append] at moved
    simp only [State.tagsInUse, State.inProgress, List.map_append, List.map_map, List.append_assoc]
    exact ((List.perm_append_comm_assoc _ _ _).trans (moved.append_left _)).append_left _
  · exact .refl _

/-- The record that has been shifted out frees its slot (R173, R174). -/
theorem State.recordShiftedOut_tagsWithin (s : State) : State.TagsWithin s (State.recordShiftedOut s) := by
  unfold State.recordShiftedOut
  split
  · refine List.Sublist.subperm ?_
    rw [State.tagsInUse_eq, State.tagsInUse_eq, tagsHeld, tagsHeld]
    exact (((List.tail_sublist _).map _).append_right _).append_right _
  · exact .refl _

/-- RESTART frees the slots of the waiting commands, or all of them (R178, R179). -/
theorem State.restart_tagsWithin (s : State) (cut : FrameBits) : State.TagsWithin s (State.restart s cut).1 := by
  unfold State.restart
  split
  · exact .refl _
  · unfold State.takeRestart
    dsimp only
    split
    · exact State.tagsWithin_of_nil (State.tagsInUse_clearForRestart _)
    · next j job =>
      rw [State.abandon_eq]
      dsimp only
      generalize (State.abandon _ cut).array = m
      generalize (State.abandon _ cut).ctrl = ctrl
      have discarded : State.TagsWithin s
          { s with
            intake := { s.intake with waiting := [], restartPending := true }, array := m, ctrl := ctrl } := by
        refine List.Sublist.subperm ?_
        rw [State.tagsInUse_eq, State.tagsInUse_eq, tagsHeld, tagsHeld]
        exact (List.Sublist.refl _).append (List.nil_sublist _)
      unfold State.serveIfFree
      split
      · exact (State.serveWaiting_tagsWithin _).trans discarded
      · exact discarded

theorem State.immediate_tagsWithin {s : State} (code : Byte) {act : Byte → State × List Byte}
    (h : ∀ captured, State.TagsWithin s (act captured).1) : State.TagsWithin s (State.immediate s code act) := by
  unfold State.immediate
  split
  · exact h _
  · exact .refl _

/-! ### Every step -/

theorem exec_tagsWithin_of_event {c : Instr} (event : arrayEvent c) {s t : State} (h : exec c s = .next t) :
    State.TagsWithin s t := by
  obtain ⟨run, evolves, runs⟩ := exec_evolves s event
  have same := runs s.intake.restartPending
  rw [State.withRestart_self rfl, h] at same
  cases same
  exact evolves.tagsWithin _

/-- Whatever command or event is taken, at most eight slots are in use and no tag is shared. -/
theorem exec_slotsOk {c : Instr} {s t : State} (ok : State.slotsOk s) (h : exec c s = .next t) : State.slotsOk t := by
  have dispatched (code : Byte) {run : State → Command → State}
      (goes : ∀ t cmd, State.CarriesOn t cmd fun b => run (State.withRestart t b) cmd) :
      State.slotsOk (State.dispatch s code run) :=
    (State.dispatch_tagsWithin_of_carriesOn goes code).slotsOk ok
  cases c with
  | submission code tag args crc => cases h; exact State.submission_slotsOk ok code tag args crc
  | recordShiftedOut => cases h; exact (State.recordShiftedOut_tagsWithin s).slotsOk ok
  | cancel tag => cases h; exact (State.immediate_tagsWithin _ fun _ => State.cancel_tagsWithin s tag).slotsOk ok
  | restart cut => cases h; exact (State.immediate_tagsWithin _ fun _ => State.restart_tagsWithin s cut).slotsOk ok
  | issue => cases h; exact dispatched _ State.runIssue_carriesOn
  | lookup => cases h; exact dispatched _ State.runLookup_carriesOn
  | draw => cases h; exact dispatched _ State.runDraw_carriesOn
  | topup => cases h; exact dispatched _ State.runTopup_carriesOn
  | move => cases h; exact dispatched _ State.runMove_carriesOn
  | revoke => cases h; exact dispatched _ State.runRevoke_carriesOn
  | list => cases h; exact dispatched _ State.runList_carriesOn
  | configureClass => cases h; exact dispatched _ State.runConfigureClass_carriesOn
  | purgeOrphans => cases h; exact dispatched _ State.runPurgeOrphans_carriesOn
  | format cut =>
    cases h
    exact (State.dispatch_tagsWithin (fun t cmd => (State.tagsInUse_runFormat t cmd cut).subperm) _).slotsOk ok
  | readComplete | blankVerify | quantum | strikeComplete | markerRetirement | bodyErase | markerErase | systemFrameErase
    | suspension =>
    exact (exec_tagsWithin_of_event (by simp [arrayEvent]) h).slotsOk ok
  | _ =>
    obtain stand | freed := exec_slots rfl h
    · exact (State.tagsWithin_of_eq stand.tagsInUse).slotsOk ok
    · exact (State.tagsWithin_of_nil freed.tagsInUse).slotsOk ok

/-- Settles O52: the walk of a mount keeps the slots, and so does every command and event. -/
theorem slotBoundsAndDistinctTagsKept : Obligations.SlotBoundsAndDistinctTagsKept := by
  intro s t ok h
  unfold step at h
  split at h
  · cases h
    have within := (State.tick_evolves s).tagsWithin s.intake.restartPending
    rw [State.withRestart_self rfl] at within
    exact within.slotsOk ok
  · next c rest _ => exact exec_slotsOk (s := { s with pending := rest }) ok h

end Sys2Proof.Machine
end

section
/-! The reset state (R177), INFO (R180), COLLECT (R173, R174, R190) and CANCEL (R175): their outcomes and their answers. -/

namespace Sys2Proof.Machine

set_option Elab.async false

/-! ### Reset -/

/-- Settles O50: the reset state is what power-on leaves of itself. -/
theorem resetIsSafe : Obligations.ResetIsSafe := by
  have on : State.powerOn State.reset [] = State.reset := rfl
  have keys : State.keysOk State.reset := on ▸ State.powerOn_keysOk State.reset []
  have places : State.placesOk State.reset := on ▸ State.powerOn_placesOk State.reset []
  have freed : State.tagsInUse State.reset = [] := rfl
  have slots : State.slotsOk State.reset := by
    rw [State.slotsOk, ← State.length_tagsInUse, freed]
    exact ⟨Nat.zero_le 8, List.nodup_nil⟩
  exact ⟨reset_array_wf, slots, (State.workOk_iff_of_open rfl).mpr (WorkView.begun_ok true), keys, places⟩

/-! ### INFO -/

/-- Settles O11: the answer is of the state before FAULT_EVENT is cleared, and no argument byte comes before it. -/
theorem infoClearsFaultEvent : Obligations.InfoClearsFaultEvent := by
  intro captured s decoding
  have taken := State.immediate_of_decoding decoding 0x03 fun _ => State.info s
  exact congrArg _ taken

/-! ### COLLECT -/

section Collect

variable {s : State} {captured : Byte}

theorem State.collect_of_pending (decoding : State.decoding s captured) (pending : s.intake.restartPending = true) :
    State.collect s = State.answered s captured [Code.byte .notReady] := by
  simp only [State.collect, show s.link.transaction = some ⟨captured, .decoding⟩ from decoding, pending, if_true]
  rfl

theorem State.collect_of_empty (decoding : State.decoding s captured) (going : s.intake.restartPending = false)
    (empty : s.intake.results = []) : State.collect s = State.answered s captured [Code.byte .noneWaiting] := by
  simp only [State.collect, show s.link.transaction = some ⟨captured, .decoding⟩ from decoding, going, empty,
    Bool.false_eq_true, if_false]
  rfl

theorem State.collect_of_record (decoding : State.decoding s captured) (going : s.intake.restartPending = false) {r : Record}
    {rest : List Record} (results : s.intake.results = r :: rest) :
    State.collect s =
      State.setTransaction s (some { captured := captured, phase := .collecting (Code.byte .done :: Record.bytes r) }) := by
  simp only [State.collect, show s.link.transaction = some ⟨captured, .decoding⟩ from decoding, going, results,
    Bool.false_eq_true, if_false]

theorem State.recordShiftedOut_of_collecting {answer : List Byte}
    (collecting : s.link.transaction = some { captured := captured, phase := .collecting answer }) {r : Record}
    {rest : List Record} (results : s.intake.results = r :: rest) :
    State.recordShiftedOut s =
      State.answered { s with intake := { s.intake with results := rest } } captured answer := by
  simp only [State.recordShiftedOut, collecting, results]
  rfl

end Collect

/-- The head record's tag stands first among the tags in use. -/
theorem State.tagsInUse_of_results {s : State} {r : Record} {rest : List Record} (results : s.intake.results = r :: rest) :
    State.tagsInUse s = r.cmd.tag :: State.tagsInUse { s with intake := { s.intake with results := rest } } := by
  simp [State.tagsInUse, State.inProgress, results]

/-- Settles O10: the three answers of COLLECT, and the head record's slot freed when it has been shifted out. -/
theorem collectHandsOutHeadRecordWhole : Obligations.CollectHandsOutHeadRecordWhole := by
  refine ⟨fun captured s decoding => ⟨fun pending => ?_, fun going empty => ?_, fun r rest going results => ?_⟩,
    fun captured answer s r rest collecting results => ⟨⟨_, ?_, rfl, ?_, fun distinct => ?_⟩, rfl⟩⟩
  · exact congrArg _ (State.collect_of_pending decoding pending)
  · exact congrArg _ (State.collect_of_empty decoding going empty)
  · exact congrArg _ (State.collect_of_record decoding going results)
  · exact congrArg _ (State.recordShiftedOut_of_collecting collecting results)
  · rw [← State.length_tagsInUse, ← State.length_tagsInUse s, State.tagsInUse_of_results results]
    rfl
  · rw [State.tagsInUse_of_results results] at distinct
    exact (List.nodup_cons.mp distinct).1

/-! ### CANCEL -/

section Tags

variable {s : State} {tag : Byte}

/-- A tag in use is of a record, of the command in progress, or of a waiting command (R165). -/
theorem State.mem_tagsInUse_iff :
    tag ∈ State.tagsInUse s ↔
      (∃ r ∈ s.intake.results, r.cmd.tag = tag) ∨ (∃ j, s.engine.job = some j ∧ j.cmd.tag = tag) ∨
        ∃ c ∈ s.intake.waiting, c.tag = tag := by
  simp [State.tagsInUse, State.inProgress]

theorem State.slotStateByte_of_waiting (waits : ∃ c ∈ s.intake.waiting, c.tag = tag) : State.slotStateByte s tag = 1 := by
  simp [State.slotStateByte, waits]

theorem State.slotStateByte_of_job (free : ∀ c ∈ s.intake.waiting, c.tag ≠ tag) {j : Job} (job : s.engine.job = some j)
    (holds : j.cmd.tag = tag) : State.slotStateByte s tag = 2 := by
  have none : ¬ ∃ c ∈ s.intake.waiting, c.tag = tag := by simpa using free
  simp [State.slotStateByte, none, State.inProgress, job, holds]

theorem State.slotStateByte_of_result (free : ∀ c ∈ s.intake.waiting, c.tag ≠ tag)
    (idle : ∀ j, s.engine.job = some j → j.cmd.tag ≠ tag) (holds : ∃ r ∈ s.intake.results, r.cmd.tag = tag) :
    State.slotStateByte s tag = 3 := by
  have none : ¬ ∃ c ∈ s.intake.waiting, c.tag = tag := by simpa using free
  have calm : ¬ ∃ j, s.engine.job = some j ∧ j.cmd.tag = tag := by simpa using idle
  simp [State.slotStateByte, none, State.inProgress, calm, holds]

theorem State.slotStateByte_of_unused (unused : tag ∉ State.tagsInUse s) : State.slotStateByte s tag = 0 := by
  rw [State.mem_tagsInUse_iff, not_or, not_or] at unused
  obtain ⟨results, calm, none⟩ := unused
  simp [State.slotStateByte, none, State.inProgress, calm, results]

/-- With distinct tags a tag of a record or of the command in progress is of no waiting command. -/
theorem State.waiting_ne_of_nodup (distinct : (State.tagsInUse s).Nodup)
    (held : (∃ r ∈ s.intake.results, r.cmd.tag = tag) ∨ ∃ j, s.engine.job = some j ∧ j.cmd.tag = tag) :
    ∀ c ∈ s.intake.waiting, c.tag ≠ tag := by
  rintro c hc rfl
  refine (List.nodup_append.mp distinct).2.2 c.tag ?_ c.tag (List.mem_map_of_mem hc) rfl
  simpa [State.inProgress] using held

/-- With distinct tags a tag of a record is not that of the command in progress. -/
theorem State.job_ne_of_nodup (distinct : (State.tagsInUse s).Nodup) (held : ∃ r ∈ s.intake.results, r.cmd.tag = tag)
    (j : Job) (job : s.engine.job = some j) : j.cmd.tag ≠ tag := by
  obtain ⟨r, hr, rfl⟩ := held
  have before := (List.nodup_append.mp (List.nodup_append.mp distinct).1).2.2
  exact (before r.cmd.tag (List.mem_map_of_mem hr) j.cmd.tag (by simp [State.inProgress, job])).symm

end Tags

section Outcome

variable {s : State} {tag : Byte}

theorem State.cancelOutcome_of_pending (pending : s.intake.restartPending = true) :
    State.cancelOutcome s tag = .notReady := by
  rw [State.cancelOutcome, if_pos pending]

variable (going : s.intake.restartPending = false)
include going

theorem State.cancelOutcome_of_zero (zero : tag = 0) : State.cancelOutcome s tag = .badArgument := by
  rw [State.cancelOutcome, if_neg (by simp [going]), if_pos zero]

variable (nonzero : tag ≠ 0)
include nonzero

theorem State.cancelOutcome_of_waiting (waits : ∃ c ∈ s.intake.waiting, c.tag = tag) :
    State.cancelOutcome s tag = .done := by
  rw [State.cancelOutcome, if_neg (by simp [going]), if_neg nonzero, if_pos (by simpa using waits)]

theorem State.cancelOutcome_of_held (free : ∀ c ∈ s.intake.waiting, c.tag ≠ tag) (held : tag ∈ State.tagsInUse s) :
    State.cancelOutcome s tag = .tooLate := by
  rw [State.cancelOutcome, if_neg (by simp [going]), if_neg nonzero, if_neg (by simpa using free),
    if_pos (by simpa using held)]

theorem State.cancelOutcome_of_unused (unused : tag ∉ State.tagsInUse s) : State.cancelOutcome s tag = .notFound := by
  have free : ¬ ∃ c ∈ s.intake.waiting, c.tag = tag := fun waits =>
    unused (State.mem_tagsInUse_iff.mpr (.inr (.inr waits)))
  rw [State.cancelOutcome, if_neg (by simp [going]), if_neg nonzero, if_neg (by simpa using free),
    if_neg (by simpa using unused)]

end Outcome

/-- The answer of a CANCEL, whose one argument byte is clocked in before it (R175, R197). -/
theorem exec_cancel_of_decoding {s : State} {captured : Byte} (decoding : State.decoding s captured) (tag : Byte) :
    exec (.cancel tag) s =
      .next
        (State.answered (State.cancel s tag).1 captured
          [Config.misoDuringArguments s.freeUses 0, Code.byte (State.cancelOutcome s tag), tag, State.slotStateByte s tag]) :=
  congrArg _ (State.immediate_of_decoding decoding 0x07 fun _ => State.cancel s tag)

theorem State.cancel_of_refused {s : State} {tag : Byte} (refused : State.cancelOutcome s tag ≠ .done) :
    (State.cancel s tag).1 = { s with freeUses := s.freeUses + 1 } := if_neg refused

/-- The waiting command of a tag, among distinct tags, is taken out and its CANCELLED record posted (R175). -/
theorem State.cancel_of_waiting {s : State} {before after : List Command} {cmd : Command}
    (waiting : s.intake.waiting = before ++ cmd :: after) (distinct : (State.tagsInUse s).Nodup)
    (done : State.cancelOutcome s cmd.tag = .done) :
    (State.cancel s cmd.tag).1 =
      { s with
          freeUses := s.freeUses + 1
          intake :=
            { s.intake with
                waiting := before ++ after
                results := s.intake.results ++ [cancelledRecord cmd] } } := by
  have tags : ((before ++ cmd :: after).map fun c => c.tag).Nodup := waiting ▸ (List.nodup_append.mp distinct).2.1
  rw [List.map_append, List.map_cons, List.nodup_middle, ← List.map_append] at tags
  have others : ∀ c ∈ before ++ after, c.tag ≠ cmd.tag := fun c hc same =>
    (List.nodup_cons.mp tags).1 (same ▸ List.mem_map_of_mem hc)
  have left : (s.intake.waiting.filter fun c => c.tag ≠ cmd.tag) = before ++ after := by
    rw [waiting, List.filter_append, List.filter_cons_of_neg (by simp), ← List.filter_append, List.filter_eq_self]
    simpa using others
  have taken : (s.intake.waiting.filter fun c => c.tag = cmd.tag) = [cmd] := by
    have none {part : List Command} (sub : ∀ c ∈ part, c.tag ≠ cmd.tag) :
        (part.filter fun c => c.tag = cmd.tag) = [] := by
      simpa using sub
    rw [waiting, List.filter_append, List.filter_cons_of_pos (by simp),
      none fun c hc => others c (List.mem_append_left _ hc), none fun c hc => others c (List.mem_append_right _ hc)]
    rfl
  simp only [State.cancel, done, if_true, left, taken, List.map_cons, List.map_nil]

/-- Settles O14: the slot state of a tag, and each outcome of CANCEL. -/
theorem cancelRemovesWaitingCommand : Obligations.CancelRemovesWaitingCommand := by
  refine ⟨fun s tag => ⟨State.slotStateByte_of_unused, fun distinct => ⟨State.slotStateByte_of_waiting, ?_, fun held => ?_⟩⟩,
    fun tag captured s decoding => ?_⟩
  · rintro ⟨j, job, holds⟩
    exact State.slotStateByte_of_job (State.waiting_ne_of_nodup distinct (.inr ⟨j, job, holds⟩)) job holds
  · exact State.slotStateByte_of_result (State.waiting_ne_of_nodup distinct (.inl held))
      (State.job_ne_of_nodup distinct held) held
  have refused {code : Code} (outcome : State.cancelOutcome s tag = code) (other : code ≠ .done) :
      exec (.cancel tag) s =
        .next
          (State.answered { s with freeUses := s.freeUses + 1 } captured
            [Config.misoDuringArguments s.freeUses 0, Code.byte code, tag, State.slotStateByte s tag]) := by
    rw [exec_cancel_of_decoding decoding, State.cancel_of_refused (outcome ▸ other), outcome]
  refine ⟨fun before after cmd going nonzero waiting holds distinct => ?_, fun pending => ?_, fun going =>
    ⟨fun zero => ?_, fun nonzero unused => ?_, fun j nonzero distinct job holds => ?_, fun nonzero distinct held => ?_⟩⟩
  · subst holds
    have waits : ∃ c ∈ s.intake.waiting, c.tag = cmd.tag := ⟨cmd, by simp [waiting], rfl⟩
    have done := State.cancelOutcome_of_waiting going nonzero waits
    rw [exec_cancel_of_decoding decoding, State.cancel_of_waiting waiting distinct done, done,
      State.slotStateByte_of_waiting waits]
    rfl
  · exact refused (State.cancelOutcome_of_pending pending) nofun
  · exact refused (State.cancelOutcome_of_zero going zero) nofun
  · rw [refused (State.cancelOutcome_of_unused going nonzero unused) nofun, State.slotStateByte_of_unused unused]
    rfl
  · have free := State.waiting_ne_of_nodup distinct (.inr ⟨j, job, holds⟩)
    have held := State.mem_tagsInUse_iff.mpr (.inr (.inl ⟨j, job, holds⟩))
    rw [refused (State.cancelOutcome_of_held going nonzero free held) nofun, State.slotStateByte_of_job free job holds]
    rfl
  · have free := State.waiting_ne_of_nodup distinct (.inl held)
    rw [refused (State.cancelOutcome_of_held going nonzero free (State.mem_tagsInUse_iff.mpr (.inl held))) nofun,
      State.slotStateByte_of_result free (State.job_ne_of_nodup distinct held) held]
    rfl

end Sys2Proof.Machine
end

section
/-! RESTART (R178, R179, R121, R131): refused, taken with no command in progress, and taken behind one. -/

namespace Sys2Proof.Machine

set_option Elab.async false

/-! ### RESTART is taken or refused -/

section Answer

variable {s : State} {captured : Byte} (decoding : State.decoding s captured) (cut : FrameBits)
include decoding

theorem exec_restart_of_refused (refused : s.intake.restartPending = true ∨ s.part = .mounting) :
    exec (.restart cut) s = .next (State.answered s captured [Code.byte .notReady]) := by
  have answer : State.restart s cut = (s, [Code.byte .notReady]) := if_pos (by simpa using refused)
  rw [exec, execRestart, State.immediate_of_decoding decoding, answer]
  rfl

theorem exec_restart_of_taken (going : s.intake.restartPending = false) (mounted : s.part ≠ .mounting) :
    exec (.restart cut) s = .next (State.answered (State.takeRestart s cut) captured [Code.byte .done]) := by
  have answer : State.restart s cut = (State.takeRestart s cut, [Code.byte .done]) :=
    if_neg (by simpa [going] using mounted)
  rw [exec, execRestart, State.immediate_of_decoding decoding, answer]
  rfl

end Answer

/-- The part as RESTART is taken: the waiting commands have left, and the RESTART is pending (R178). -/
def State.discarded (s : State) : State :=
  { s with intake := { s.intake with waiting := [], restartPending := true } }

theorem State.takeRestart_of_idle {s : State} (job : s.engine.job = none) (cut : FrameBits) :
    State.takeRestart s cut = State.clearForRestart (State.abandon (State.discarded s) cut) := by
  simp only [State.takeRestart, job]
  rfl

theorem State.takeRestart_of_job {s : State} {j : Job} (job : s.engine.job = some j) (cut : FrameBits) :
    State.takeRestart s cut = State.serveIfFree (State.abandon (State.discarded s) cut) := by
  simp only [State.takeRestart, job]
  rfl

/-! ### Background work is abandoned -/

/-- A foreground operation runs on, and a suspended erase is forgotten (R121). -/
theorem State.abandon_of_foreground {s : State} {op : Op} (progressing : s.ctrl.op = some op)
    (foreground : Op.isBackground op = false) (cut : FrameBits) :
    State.abandon s cut = { s with ctrl := { s.ctrl with suspended := none } } := by
  simp [State.abandon, progressing, foreground]

theorem State.abandon_of_nothing {s : State} (idle : s.ctrl.op = none) (cut : FrameBits) :
    State.abandon s cut = { s with ctrl := { s.ctrl with suspended := none } } := by
  simp [State.abandon, idle]

/-- A background operation stops where it stands (R120, R121). -/
theorem State.abandon_of_progressing {s : State} {op : Op} (progressing : s.ctrl.op = some op)
    (background : Op.isBackground op = true) (cut : FrameBits) :
    State.abandon s cut =
      { s with array := Op.cut s.array cut op, ctrl := { s.ctrl with op := none, suspended := none } } := by
  simp [State.abandon, progressing, background]

/-- The background operation is abandoned, and the claim that waits is served at once (R121). -/
theorem State.takeRestart_of_background {s : State} {j : Job} (job : s.engine.job = some j) {op : Op}
    (progressing : s.ctrl.op = some op) (background : Op.isBackground op = true) (cut : FrameBits) :
    State.takeRestart s cut =
      State.serveWaiting
        { State.discarded s with
            array := Op.cut s.array cut op, ctrl := { s.ctrl with op := none, suspended := none } } := by
  rw [State.takeRestart_of_job job, State.abandon_of_progressing (s := State.discarded s) progressing background]
  rfl

/-- The take that waited for background work, with no frame free and none suspended, erases the head of the reclaim queue
(R131). -/
theorem State.serveWaiting_of_emptyPool {s : State} {cmd : Command} {w : Writing} {f : Frame} {more : List Frame}
    (waits : s.ctrl.waiting = some .demand) (idle : s.ctrl.op = none) (unsuspended : s.ctrl.suspended = none)
    (job : s.engine.job = some { cmd := cmd, step := .takeWait w }) (free : s.pools.free = [])
    (reclaim : s.pools.reclaim = f :: more) (grant : 3 ≤ f.val) :
    State.serveWaiting s =
      State.wentOn s cmd (.takeErase w)
        (.erase .foreground { frame := f, attempt := .first, stage := .markerRetirement, progress := 0 } 0) := by
  have begins : Claim.operation (.erase f) =
      some (.erase .foreground { frame := f, attempt := .first, stage := .markerRetirement, progress := 0 } 0) := by
    rw [Claim.operation, Erase.start_of_grant grant]
  rw [State.serveWaiting_of_demand cmd w waits job, State.take_of_empty (by exact free),
    State.demandReclaim_of_idle (by exact unsuspended) (by exact idle)]
  simp only [State.demandNext, reclaim]
  exact State.claimStep_of_idle (s := State.unclaimed s) idle begins cmd _

/-! ### Taken behind a command in progress -/

/-- The outcome of a RESTART taken behind the command in progress, which is left as `job` with the controller `ctrl` and the
array `m` (R178). -/
def State.restarting (s : State) (m : Memory) (job : Job) (ctrl : Controller) : State :=
  { s with
      intake := { waiting := [], results := s.intake.results, restartPending := true }
      array := m
      engine := { s.engine with job := some job }
      ctrl := ctrl }

section Taken

variable {s : State} {j : Job} (job : s.engine.job = some j) (cut : FrameBits)
include job

theorem State.restarting_of_job (m : Memory) (ctrl : Controller) :
    State.restarting s m j ctrl = { State.discarded s with array := m, ctrl := ctrl } := by
  simp only [State.restarting, ← job]
  rfl

theorem State.takeRestart_of_foreground {op : Op} (progressing : s.ctrl.op = some op)
    (foreground : Op.isBackground op = false) :
    State.takeRestart s cut = State.restarting s s.array j { s.ctrl with suspended := none } := by
  rw [State.takeRestart_of_job job, State.abandon_of_foreground (s := State.discarded s) progressing foreground,
    State.restarting_of_job job]
  simp only [State.serveIfFree, State.discarded, progressing]

/-- A claim that waited on background work begins its operation (R121). -/
theorem State.takeRestart_of_claim {op : Op} (progressing : s.ctrl.op = some op) (background : Op.isBackground op = true)
    {k : Claim} {next : Op} (waits : s.ctrl.waiting = some k) (asks : Claim.operation k = some next) :
    State.takeRestart s cut =
      State.restarting s (Op.cut s.array cut op) j { op := some next, suspended := none, waiting := none } := by
  rw [State.takeRestart_of_background job progressing background, State.restarting_of_job job]
  exact State.serveWaiting_of_operation rfl waits asks

/-- The take that waited for a background mark strike erases the head of the reclaim queue (R121, R131). -/
theorem State.takeRestart_of_demand {op : Op} (progressing : s.ctrl.op = some op) (background : Op.isBackground op = true)
    {w : Writing} {f : Frame} {more : List Frame} (waits : s.ctrl.waiting = some .demand) (step : j.step = .takeWait w)
    (free : s.pools.free = []) (reclaim : s.pools.reclaim = f :: more) (grant : 3 ≤ f.val) :
    State.takeRestart s cut =
      State.restarting s (Op.cut s.array cut op) { j with step := .takeErase w }
        { op := some (.erase .foreground { frame := f, attempt := .first, stage := .markerRetirement, progress := 0 } 0)
          suspended := none, waiting := none } := by
  obtain ⟨cmd, _⟩ := j
  obtain rfl := step
  rw [State.takeRestart_of_background job progressing background,
    State.serveWaiting_of_emptyPool (by exact waits) rfl rfl (by exact job) (by exact free) (by exact reclaim) grant]
  rfl

end Taken

/-- Settles O4: one case of the controller's work after the other, and the refusals. -/
theorem restartTakenOrRefused : Obligations.RestartTakenOrRefused := by
  refine ⟨fun cut captured s j decoding going mounted job => ?_, fun cut captured s decoding => ⟨fun going mounted idle => ?_,
    exec_restart_of_refused decoding cut⟩⟩
  · have taken := exec_restart_of_taken decoding cut going mounted
    refine ⟨fun op progressing foreground => ?_, fun e since k op progressing waits asks => ?_,
      fun g what progressing => ⟨fun k op waits asks => ?_, fun w f more waits step free reclaim grant => ?_⟩⟩
    · rw [taken, State.takeRestart_of_foreground job cut progressing foreground]
      rfl
    · rw [taken, State.takeRestart_of_claim job cut progressing rfl waits asks]
      rfl
    · rw [taken, State.takeRestart_of_claim job cut progressing rfl waits asks]
      rfl
    · rw [taken, State.takeRestart_of_demand job cut progressing rfl waits step free reclaim grant]
      rfl
  · rw [exec_restart_of_taken decoding cut going mounted, State.takeRestart_of_idle idle, State.clearForRestart_eq]
    cases progressing : s.ctrl.op with
    | none =>
      rw [State.abandon_of_nothing (s := State.discarded s) progressing]
      rfl
    | some op =>
      cases background : Op.isBackground op with
      | true =>
        rw [State.abandon_of_progressing (s := State.discarded s) progressing background]
        simp only [background, if_true]
        rfl
      | false =>
        rw [State.abandon_of_foreground (s := State.discarded s) progressing background]
        simp only [background, Bool.false_eq_true, if_false]
        rfl

end Sys2Proof.Machine
end

section
/-! The resets (R192, R193, R146) and the bounds of a transaction (R181, R182, R191). -/

namespace Sys2Proof.Machine

set_option Elab.async false

/-! ### Power-on and RESETN -/

theorem State.portOpen_iff {s : State} :
    State.portOpen s = true ↔ s.pins.powered = true ∧ s.pins.resetnLow = false := by
  simp [State.portOpen]

/-- What the reset leaves: of the state before, the array as the cut left it, the queue and the counter of free values. -/
theorem State.heldInReset_eq (s : State) (cut : FrameBits) (pins : Pins) :
    State.heldInReset s cut pins =
      { State.reset with
          pins := pins
          ctrl := { op := none, suspended := none, waiting := none }
          mount := { work := none, report := MountReport.zero, label := none }
          array := State.cutArray s cut
          pending := s.pending
          freeUses := s.freeUses } := rfl

/-- The mount begun in a part held in reset gives the reset state (R193). -/
theorem State.powerOn_eq (s : State) (cut : FrameBits) :
    State.powerOn s cut =
      { State.reset with array := State.cutArray s cut, pending := s.pending, freeUses := s.freeUses } := rfl

theorem State.resetnAssertion_of_open {s : State} (isOpen : State.portOpen s = true) (cut : FrameBits) :
    State.resetnAssertion s cut = State.heldInReset s cut { powered := true, resetnLow := true } := if_pos isOpen

theorem State.resetnRelease_of_low {s : State} (powered : s.pins.powered = true) (low : s.pins.resetnLow = true) :
    State.resetnRelease s = State.beginMount { s with pins := { powered := true, resetnLow := false } } :=
  if_pos (by simp [powered, low])

/-- A mount that begins with the controller idle has its READ of frame 0 in progress (R146). -/
theorem State.beginMount_of_idle {s : State} (idle : s.ctrl = { op := none, suspended := none, waiting := none }) :
    State.beginMount s =
      { s with
          part := .mounting
          mount :=
            { work := some { step := .readFormat, scanned := [] }, report := MountReport.zero, label := s.mount.label }
          ctrl := { op := some (.read 0), suspended := none, waiting := none } } := by
  rw [State.beginMount, idle]
  rfl

/-- A part held in reset has every slot FREE, MISO at high impedance, ATTN released and the controller IDLE (R177, R191, R192). -/
theorem State.heldInReset_released (s : State) (cut : FrameBits) (pins : Pins) :
    State.slots (State.heldInReset s cut pins) = List.replicate 8 .free ∧
      (∀ n, State.miso (State.heldInReset s cut pins) n = .highImpedance) ∧
      State.attnLow (State.heldInReset s cut pins) = false ∧
      Controller.named (State.heldInReset s cut pins).ctrl = .idle :=
  ⟨rfl, fun _ => rfl, Bool.and_false _, rfl⟩

/-- Settles O2: power-on and RESETN go through the part held in reset, and a mount begins from it. -/
theorem resetsClearVolatileState : Obligations.ResetsClearVolatileState := by
  refine ⟨rfl, fun cut s => ?_, fun cut s powered high =>
    ⟨State.heldInReset s cut { powered := true, resetnLow := true }, ?_, ?_, State.heldInReset_released s cut _⟩,
    fun s powered low idle => ?_⟩
  · exact congrArg Host.Outcome.next (State.powerOn_eq s cut)
  · exact congrArg _ (State.resetnAssertion_of_open (State.portOpen_iff.mpr ⟨powered, high⟩) cut)
  · exact State.heldInReset_eq s cut _
  · rw [exec, execResetnRelease, State.resetnRelease_of_low powered low, State.beginMount_of_idle (by exact idle)]

/-! ### The bytes of MISO -/

theorem State.chipSelectFall_of_open {s : State} (isOpen : State.portOpen s = true)
    (none : s.link.transaction = none) :
    State.chipSelectFall s =
      State.setTransaction s (some { captured := State.portStatus s, phase := .decoding }) := by
  simp only [State.chipSelectFall, isOpen, none, if_true]

/-- A byte beyond those shifted out is H'FF (R181). -/
theorem getD_eq_dite {α : Type} (l : List α) (n : Nat) (x : α) : l.getD n x = if h : n < l.length then l[n] else x := by
  split
  · next inside => exact List.getD_eq_getElem l x inside
  · next beyond => exact List.getD_eq_default l x (Nat.not_lt.mp beyond)

theorem State.miso_of_shifting {s : State} {captured : Byte} {out : List Byte}
    (shifting :
      s.link.transaction = some { captured := captured, phase := .answering out } ∨
        s.link.transaction = some { captured := captured, phase := .collecting out }) :
    State.miso s 0 = .carries captured ∧ ∀ n, State.miso s (n + 1) = .carries (out.getD n 0xFF) := by
  rcases shifting with answering | collecting
  · simp only [State.miso, answering, Transaction.miso, implies_true, and_self]
  · simp only [State.miso, collecting, Transaction.miso, implies_true, and_self]

/-! ### The port status byte -/

/-- A bit of a byte that is sent only while its flag is set. -/
theorem getLsbD_flagged (flag : Bool) (b : Byte) (i : Nat) :
    (if flag then b else 0).getLsbD i = (flag && b.getLsbD i) := by
  cases flag <;> simp

/-- Flag bits outside a mask do not show in it. -/
theorem flagged_and_of_disjoint (flag : Bool) {b mask : Byte} (disjoint : b &&& mask = 0) :
    (if flag then b else 0) &&& mask = 0#8 := by
  cases flag
  · exact BitVec.zero_and
  · exact disjoint

theorem PartState.field_and_mask (p : PartState) : PartState.field p &&& 7 = PartState.field p := by
  cases p <;> rfl

/-- The part state field takes bits 2 to 0 of the port status byte (R182). -/
theorem PartState.getLsbD_field (p : PartState) {i : Nat} (beyond : 3 ≤ i) : (PartState.field p).getLsbD i = false := by
  have small : (PartState.field p).toNat < 2 ^ 3 := by cases p <;> decide
  rw [← BitVec.testBit_toNat]
  exact Nat.testBit_eq_false_of_lt (small.trans_le (Nat.pow_le_pow_right Nat.two_pos beyond))

/-- Bits 7 to 3 of the port status byte (R182). -/
theorem State.getLsbD_portStatus (s : State) {i : Nat} (beyond : 3 ≤ i) :
    (State.portStatus s).getLsbD i =
      (State.resultWaiting s && (0x80 : Byte).getLsbD i || s.link.mounted && (0x40 : Byte).getLsbD i ||
        s.link.faultEvent && (0x20 : Byte).getLsbD i || State.lowFree s && (0x10 : Byte).getLsbD i ||
        s.link.truncated && (0x08 : Byte).getLsbD i) := by
  simp only [State.portStatus, BitVec.getLsbD_or, getLsbD_flagged, PartState.getLsbD_field _ beyond, Bool.or_false]

theorem State.portStatus_and_mask (s : State) : State.portStatus s &&& 7 = PartState.field s.part := by
  simp (disch := decide) only [State.portStatus, BitVec.and_or_distrib_right, flagged_and_of_disjoint,
    PartState.field_and_mask, BitVec.zero_or]

theorem State.resultWaiting_iff {s : State} :
    State.resultWaiting s = true ↔ s.intake.results ≠ [] ∧ s.intake.restartPending = false := by
  simp [State.resultWaiting]

theorem State.lowFree_iff {s : State} : State.lowFree s = true ↔ s.part = .ready ∧ s.pools.free.length < 8 := by
  simp [State.lowFree]

theorem State.attnLow_iff {s : State} :
    State.attnLow s = true ↔
      s.pins.powered = true ∧ s.pins.resetnLow = false ∧
        (s.intake.results ≠ [] ∧ s.intake.restartPending = false ∨ s.link.mounted = true ∨ s.link.faultEvent = true) := by
  rw [State.attnLow, Bool.and_eq_true, State.portOpen_iff, Bool.or_eq_true, Bool.or_eq_true, State.resultWaiting_iff,
    and_assoc, or_assoc]

/-- Settles O6: the two edges of chip select, the bytes of MISO between them, and the port status byte bit by bit. -/
theorem chipSelectBoundsTransaction : Obligations.ChipSelectBoundsTransaction := by
  refine ⟨fun s powered high none => ?_, fun s => ⟨_, rfl, rfl, fun _ => rfl⟩, fun s captured out shifting => ?_,
    fun s => ⟨?waiting, ?mounted, ?fault, ?low, ?truncated, State.portStatus_and_mask s, rfl, State.attnLow_iff⟩⟩
  · exact congrArg _ (State.chipSelectFall_of_open (State.portOpen_iff.mpr ⟨powered, high⟩) none)
  · obtain ⟨first, after⟩ := State.miso_of_shifting shifting
    exact ⟨first, fun n => (after n).trans (congrArg _ (getD_eq_dite out n 0xFF))⟩
  case waiting =>
    rw [← State.resultWaiting_iff, State.getLsbD_portStatus s (by decide)]
    simp
  case low =>
    rw [← State.lowFree_iff, State.getLsbD_portStatus s (by decide)]
    simp
  case mounted | fault | truncated =>
    rw [State.getLsbD_portStatus s (by decide)]
    simp

/-! ### STATUS and unknown codes -/

/-- STATUS takes no argument byte; the MOUNTED it showed is cleared (R183). -/
theorem State.status_eq (s : State) (captured : Byte) :
    State.status s captured =
      ({ s with link := { s.link with mounted := if captured.getLsbD 6 then false else s.link.mounted } },
        [s.link.last.outcome, s.link.last.tag, s.link.last.code]) := by
  rw [State.status]
  cases captured.getLsbD 6
  · rw [Bool.not_false, Bool.and_true]
    rfl
  · rw [Bool.not_true, Bool.and_false]
    rfl

theorem submissionCode_iff {code : Byte} : submissionCode code = true ↔ 0x40 ≤ code.toNat ∧ code.toNat ≤ 0x7F := by
  simp [submissionCode]

/-- The codes that are neither immediate command codes nor in the submission range (R189, R194). -/
def unknownCode (code : Byte) : Prop := code.toNat = 0 ∨ 9 ≤ code.toNat ∧ code.toNat < 0x40 ∨ 0x80 ≤ code.toNat

theorem immediateArguments_of_outside {code : Byte} (outside : code.toNat = 0 ∨ 9 ≤ code.toNat) :
    immediateArguments code = none := by
  unfold immediateArguments
  split
  case h_9 => rfl
  all_goals omega

theorem submissionCode_of_unknown {code : Byte} (unknown : unknownCode code) : submissionCode code = false := by
  rw [Bool.eq_false_iff, ne_eq, submissionCode_iff]
  unfold unknownCode at unknown
  omega

theorem immediateArguments_of_unknown {code : Byte} (unknown : unknownCode code) : immediateArguments code = none :=
  immediateArguments_of_outside (by unfold unknownCode at unknown; omega)

theorem immediateCode_of_unknown {code : Byte} (unknown : unknownCode code) : immediateCode code = false := by
  rw [immediateCode, immediateArguments_of_unknown unknown]
  rfl

/-- Settles O9: neither command has argument bytes before its answer. -/
theorem statusAndUnknownCodeAnswers : Obligations.StatusAndUnknownCodeAnswers := by
  refine ⟨fun captured s decoding => ?_, fun code captured s decoding unknown => ?_⟩
  · rw [exec, execStatus, State.immediate_of_decoding decoding, State.status_eq]
    rfl
  · rw [exec, execUnknownImmediateCommand, submissionCode_of_unknown unknown, immediateCode_of_unknown unknown,
      State.immediate_of_decoding decoding, immediateArguments_of_unknown unknown]
    rfl

/-! ### Nothing is taken out of turn -/

section Ignored

variable {s : State} (outside : ∀ captured, ¬ State.decoding s captured)
include outside

theorem State.submission_of_not_decoding (code tag : Byte) (args : List Byte) (crc : Word) :
    State.submission s code tag args crc = s := by
  unfold State.submission
  split
  · next captured decoding => exact absurd decoding (outside captured)
  · rfl

theorem State.submissionTruncated_of_not_decoding (bytes : List Byte) : State.submissionTruncated s bytes = s := by
  unfold State.submissionTruncated
  split
  · next captured decoding => exact absurd decoding (outside captured)
  · rfl

theorem State.collect_of_not_decoding : State.collect s = s := by
  unfold State.collect
  split
  · next captured decoding => exact absurd decoding (outside captured)
  · rfl

end Ignored

/-- A dispatch wants no command in progress, no RESTART pending, and a part state that admits it (R170). -/
theorem State.dispatch_of_out_of_turn {s : State}
    (barred : s.engine.job ≠ none ∨ s.intake.restartPending = true ∨ s.part = .mounting ∨ s.part = .formatting)
    (code : Byte) (run : State → Command → State) : State.dispatch s code run = s := by
  refine State.dispatch_of_none (Option.eq_none_iff_forall_not_mem.mpr fun cmd head => ?_) run
  obtain ⟨idle, going, admitted, -⟩ := State.dispatchHead_eq_some.mp head
  rcases barred with busy | pending | mounting | formatting
  · exact busy idle
  · exact Bool.false_ne_true (going.symm.trans pending)
  · exact State.part_of_admits admitted mounting
  · simp [State.admits, formatting] at admitted

/-- Settles O15: each command of the link looks for a transaction to take it in, each dispatch for a head it may take. -/
theorem nothingTakenOutOfTurn : Obligations.NothingTakenOutOfTurn := by
  refine ⟨fun s c outside link => ?_, fun s c barred submitted => ?_⟩
  · have ignored (code : Byte) (act : Byte → State × List Byte) :=
      congrArg (Host.Outcome.next (φ := Fault) (ρ := Refusal)) (State.immediate_of_not_decoding outside code act)
    obtain rfl | rfl | rfl | ⟨value, rfl⟩ | ⟨cls, rfl⟩ | ⟨cls, rfl⟩ | ⟨tag, rfl⟩ | ⟨cut, rfl⟩ | ⟨code, rfl⟩ |
      ⟨code, tag, args, crc, rfl⟩ | ⟨bytes, rfl⟩ := link
    · exact ignored _ _
    · exact congrArg _ (State.collect_of_not_decoding outside)
    · exact ignored _ _
    · exact ignored _ _
    · exact ignored _ _
    · exact ignored _ _
    · exact ignored _ _
    · exact ignored _ _
    · rw [exec, execUnknownImmediateCommand, State.immediate_of_not_decoding outside, ite_self]
    · exact congrArg _ (State.submission_of_not_decoding outside code tag args crc)
    · exact congrArg _ (State.submissionTruncated_of_not_decoding outside bytes)
  · have undone (code : Byte) (run : State → Command → State) :=
      congrArg (Host.Outcome.next (φ := Fault) (ρ := Refusal)) (State.dispatch_of_out_of_turn barred code run)
    obtain rfl | rfl | rfl | rfl | rfl | rfl | rfl | rfl | rfl | ⟨cut, rfl⟩ := submitted
    all_goals exact undone _ _

end Sys2Proof.Machine
end

section
/-! The bytes of a transaction (R181, R184, R185, R194) and the decision on a submission (R186, R167, R187). -/

namespace Sys2Proof.Machine

set_option Elab.async false

/-! ### Immediate commands -/

/-- The immediate commands with argument bytes (R194). -/
theorem code_of_immediateArguments {code : Byte} {n : Nat} (takes : immediateArguments code = some n) (some : 0 < n) :
    code = 4 ∧ n = 4 ∨ (code = 5 ∨ code = 6 ∨ code = 7) ∧ n = 1 := by
  unfold immediateArguments at takes
  split at takes
  case h_4 four => exact .inl ⟨BitVec.eq_of_toNat_eq four, (Option.some.inj takes).symm⟩
  case h_5 five => exact .inr ⟨.inl (BitVec.eq_of_toNat_eq five), (Option.some.inj takes).symm⟩
  case h_6 six => exact .inr ⟨.inr (.inl (BitVec.eq_of_toNat_eq six)), (Option.some.inj takes).symm⟩
  case h_7 seven => exact .inr ⟨.inr (.inr (BitVec.eq_of_toNat_eq seven)), (Option.some.inj takes).symm⟩
  case h_9 => cases takes
  all_goals exact absurd (Option.some.inj takes) some.ne

/-- Fewer argument bytes than the code requires spell no command yet (R181). -/
theorem transactionCommand_of_short (cut : FrameBits) {code : Byte} {given : List Byte} {n : Nat}
    (takes : immediateArguments code = some n) (short : given.length < n) :
    transactionCommand cut (code :: given) = none := by
  obtain ⟨rfl, rfl⟩ | ⟨rfl | rfl | rfl, rfl⟩ := code_of_immediateArguments takes (Nat.zero_lt_of_lt short)
  · match given, short with
    | [], _ | [_], _ | [_, _], _ | [_, _, _], _ => rfl
  all_goals
    obtain rfl := List.length_eq_zero_iff.mp (Nat.lt_one_iff.mp short)
    rfl

theorem transactionCommand_of_unknown (cut : FrameBits) {code : Byte} (unknown : unknownCode code) :
    transactionCommand cut [code] = some (.unknownImmediateCommand code) := by
  have other := immediateCode_of_unknown unknown
  rw [transactionCommand, submissionCode_of_unknown unknown, if_neg Bool.false_ne_true]
  unfold unknownCode at unknown
  unfold immediateCommand
  split
  case h_9 => rw [other, if_neg Bool.false_ne_true]
  case h_10 => contradiction
  all_goals omega

/-! ### Submissions -/

/-- A word is its four bytes, most significant first (R181). -/
theorem append_extractLsb'_bytes (w : Word) :
    w.extractLsb' 24 8 ++ w.extractLsb' 16 8 ++ w.extractLsb' 8 8 ++ w.extractLsb' 0 8 = w := by
  apply BitVec.eq_of_toNat_eq
  simp only [toNat_append_byte, BitVec.extractLsb'_toNat, Nat.shiftRight_eq_div_pow]
  omega

theorem be32_eq (w : Word) :
    be32 w = [w.extractLsb' 24 8, w.extractLsb' 16 8, w.extractLsb' 8 8, w.extractLsb' 0 8] := by
  rw [← be32_append, append_extractLsb'_bytes]

/-- L argument bytes and four bytes of link CRC complete a submission (R184). -/
theorem submissionCommand_of_complete (code tag : Byte) {args : List Byte} (short : args.length ≤ 255) (crc : Word) :
    submissionCommand code (tag :: BitVec.ofNat 8 args.length :: (args ++ be32 crc)) =
      some (.submission code tag args crc) := by
  have length : (BitVec.ofNat 8 args.length).toNat = args.length := by
    rw [BitVec.toNat_ofNat]
    omega
  simp only [submissionCommand, length, be32_eq, List.drop_left, List.take_left, append_extractLsb'_bytes]

theorem submissionCommand_of_short (code tag len : Byte) {more : List Byte} (short : more.length < len.toNat + 4) :
    submissionCommand code (tag :: len :: more) = none := by
  rw [submissionCommand]
  split
  · next a b c d last =>
    have four := congrArg List.length last
    rw [List.length_drop] at four
    simp only [List.length_cons, List.length_nil] at four
    omega
  · rfl

theorem incompleteSubmission_cons {code : Byte} {rest : List Byte} :
    incompleteSubmission (code :: rest) = true ↔
      submissionCode code = true ∧
        ∀ (tag len : Byte) (more : List Byte), rest = tag :: len :: more → more.length < len.toNat + 4 := by
  match rest with
  | [] | [_] => simp [incompleteSubmission]
  | tag :: len :: more => simp [incompleteSubmission]

theorem incompleteSubmission_iff {bytes : List Byte} :
    incompleteSubmission bytes = true ↔
      ∃ (code : Byte) (rest : List Byte),
        bytes = code :: rest ∧ 0x40 ≤ code.toNat ∧ code.toNat ≤ 0x7F ∧
          ∀ (tag len : Byte) (more : List Byte), rest = tag :: len :: more → more.length < len.toNat + 4 := by
  cases bytes with
  | nil => exact ⟨nofun, nofun⟩
  | cons code rest =>
    rw [incompleteSubmission_cons, submissionCode_iff, and_assoc]
    constructor
    · exact fun h => ⟨code, rest, rfl, h⟩
    · rintro ⟨_, _, same, h⟩
      obtain ⟨rfl, rfl⟩ := List.cons.inj same
      exact h

/-- A submission of fewer than 7 + L bytes is none (R185). -/
theorem transactionCommand_of_incomplete (cut : FrameBits) {bytes : List Byte} (cutShort : incompleteSubmission bytes = true) :
    transactionCommand cut bytes = none := by
  cases bytes with
  | nil => rfl
  | cons code rest =>
    obtain ⟨submits, short⟩ := incompleteSubmission_cons.mp cutShort
    rw [transactionCommand, submits, if_pos rfl]
    match rest, short with
    | [], _ | [_], _ => rfl
    | tag :: len :: more, short => exact submissionCommand_of_short code tag len (short tag len more rfl)

/-- Settles O7: the table of the immediate commands, and the frame of a submission. -/
theorem transactionBytesSpellCommands : Obligations.TransactionBytesSpellCommands := by
  refine ⟨fun cut a b c d => ⟨rfl, rfl, rfl, rfl, rfl, rfl, rfl, rfl⟩,
    fun cut code given => ⟨transactionCommand_of_unknown cut, fun n => transactionCommand_of_short cut⟩,
    fun cut code tag args crc low high short => ?_, fun cut bytes => transactionCommand_of_incomplete cut,
    ⟨by decide, fun code => immediateArguments_of_outside⟩, fun code tag args => rfl, fun bytes => incompleteSubmission_iff⟩
  rw [submissionBytes, List.cons_append, transactionCommand, if_pos (submissionCode_iff.mpr ⟨low, high⟩)]
  exact submissionCommand_of_complete code tag short crc

/-! ### The decision on a submission -/

/-- A code outside H'41 to H'4A is no submitted command (R194). -/
theorem requiredLength_of_outside {code : Byte} (outside : code.toNat < 0x41 ∨ 0x4A < code.toNat) (args : List Byte) :
    requiredLength code args = none := by
  have other (k : Byte) (low : 0x41 ≤ k.toNat) (high : k.toNat ≤ 0x4A) : code ≠ k := by
    rintro rfl
    omega
  simp (disch := decide) only [requiredLength, other, if_false]

theorem State.slotsInUse_eq (s : State) :
    State.slotsInUse s =
      s.intake.results.length + (if s.engine.job = none then 0 else 1) + s.intake.waiting.length := by
  rw [State.slotsInUse, State.inProgress]
  cases s.engine.job <;> rfl

theorem State.admits_iff {s : State} {code : Byte} :
    State.admits s code = true ↔ s.part = .ready ∨ (s.part = .unformatted ∨ s.part = .faulted) ∧ code = 0x4A := by
  rw [State.admits]
  cases s.part <;> simp

section Decision

variable {s : State} {code tag : Byte} {args : List Byte} {crc : Word}

theorem State.decide_of_broken (broken : crc ≠ linkCrc (submissionBytes code tag args)) :
    State.decide s code tag args crc = .frameError := if_pos broken

variable (sound : crc = linkCrc (submissionBytes code tag args))
include sound

theorem State.decide_of_unknown (unknown : requiredLength code args = none) :
    State.decide s code tag args crc = .unknownCommand := by
  rw [State.decide, if_neg (not_not_intro sound), unknown]

theorem State.decide_of_length {required : Option Nat} (requires : requiredLength code args = some required)
    (other : required ≠ some args.length) : State.decide s code tag args crc = .lengthError := by
  rw [State.decide, if_neg (not_not_intro sound), requires]
  exact if_pos other

variable (requires : requiredLength code args = some (some args.length))
include requires

/-- The checks of a frame that is sound and of the length its command requires (R186, R167). -/
theorem State.decide_of_fitting :
    State.decide s code tag args crc =
      if s.intake.restartPending = true ∨ State.admits s code = false then .notReady
      else if tag = 0 then .tagZero
      else if tag ∈ State.tagsInUse s then .tagInUse
      else if 8 ≤ State.slotsInUse s then .queueFull
      else .accepted := by
  rw [State.decide, if_neg (not_not_intro sound), requires]
  simp

theorem State.decide_of_notReady (refused : ¬ (s.intake.restartPending = false ∧ State.admits s code = true)) :
    State.decide s code tag args crc = .notReady := by
  rw [not_and_or, Bool.not_eq_false, Bool.not_eq_true] at refused
  rw [State.decide_of_fitting sound requires, if_pos refused]

variable (admitted : s.intake.restartPending = false ∧ State.admits s code = true)
include admitted

theorem State.decide_of_admitted :
    State.decide s code tag args crc =
      if tag = 0 then .tagZero
      else if tag ∈ State.tagsInUse s then .tagInUse
      else if 8 ≤ State.slotsInUse s then .queueFull
      else .accepted := by
  rw [State.decide_of_fitting sound requires, if_neg]
  simp [admitted]

theorem State.decide_of_tagZero (zero : tag = 0) : State.decide s code tag args crc = .tagZero := by
  rw [State.decide_of_admitted sound requires admitted, if_pos zero]

theorem State.decide_of_tagInUse (nonzero : tag ≠ 0) (used : tag ∈ State.tagsInUse s) :
    State.decide s code tag args crc = .tagInUse := by
  rw [State.decide_of_admitted sound requires admitted, if_neg nonzero, if_pos used]

theorem State.decide_of_full (nonzero : tag ≠ 0) (unused : tag ∉ State.tagsInUse s) (full : 8 ≤ State.slotsInUse s) :
    State.decide s code tag args crc = .queueFull := by
  rw [State.decide_of_admitted sound requires admitted, if_neg nonzero, if_neg unused, if_pos full]

theorem State.decide_of_free (nonzero : tag ≠ 0) (unused : tag ∉ State.tagsInUse s) (free : State.slotsInUse s < 8) :
    State.decide s code tag args crc = .accepted := by
  rw [State.decide_of_admitted sound requires admitted, if_neg nonzero, if_neg unused, if_neg (Nat.not_le.mpr free)]

end Decision

/-! ### What a submission changes -/

/-- The transaction goes on with the acceptance code as byte 7 + L, which is the last-submission outcome too (R184, R187). -/
def State.decided (s : State) (code tag captured : Byte) (args : List Byte) (decision : Code) : State :=
  { s with
      link :=
        { s.link with
            transaction :=
              some
                { captured := captured
                  phase := .answering (List.replicate (6 + args.length) 0xFF ++ [Code.byte decision]) }
            last := { outcome := Code.byte decision, tag := tag, code := code }
            truncated := false } }

section Taken

variable {s : State} {code tag captured : Byte} {args : List Byte} {crc : Word} (decoding : State.decoding s captured)
  (submits : submissionCode code = true) (short : args.length ≤ 255)
include decoding submits short

theorem State.submission_of_decoding :
    State.submission s code tag args crc =
      State.decided
        (if State.decide s code tag args crc = .accepted then State.accept s { tag := tag, code := code, args := args } else s)
        code tag captured args (State.decide s code tag args crc) := by
  simp only [State.submission, show s.link.transaction = some ⟨captured, .decoding⟩ from decoding, submits, short,
    decide_true, Bool.and_self, if_true, commandTimeBytes_of_submission submits]
  rfl

theorem exec_submission_of_accepted (accepted : State.decide s code tag args crc = .accepted) :
    exec (.submission code tag args crc) s =
      .next
        (State.decided (State.accept s { tag := tag, code := code, args := args }) code tag captured args .accepted) := by
  rw [exec, execSubmission, State.submission_of_decoding decoding submits short, accepted, if_pos rfl]

theorem exec_submission_of_refused {decision : Code} (refused : State.decide s code tag args crc = decision)
    (other : decision ≠ .accepted) :
    exec (.submission code tag args crc) s = .next (State.decided s code tag captured args decision) := by
  rw [exec, execSubmission, State.submission_of_decoding decoding submits short, refused, if_neg other]

end Taken

theorem State.submissionTruncated_of_decoding {s : State} {captured : Byte} (decoding : State.decoding s captured)
    {bytes : List Byte} (cutShort : incompleteSubmission bytes = true) :
    State.submissionTruncated s bytes = { s with link := { s.link with transaction := none, truncated := true } } := by
  simp only [State.submissionTruncated, show s.link.transaction = some ⟨captured, .decoding⟩ from decoding, cutShort,
    if_true]

/-- Settles O8: the order of the checks is that of the lemmas on `State.decide`. -/
theorem submissionDecidedByFirstFailingCheck : Obligations.SubmissionDecidedByFirstFailingCheck := by
  refine ⟨fun code args => ⟨submissionCode_iff, ?_, ?_, ?_, ?_, ?_, ?_, fun outside => requiredLength_of_outside outside args⟩,
    fun s => ⟨State.slotsInUse_eq s, fun tag => State.mem_tagsInUse_iff⟩,
    fun code tag args crc captured s decoding submits short sound requires going part nonzero unused free => ?_,
    fun code tag args crc captured s decoding submits short => ?_,
    fun bytes captured s decoding cutShort => congrArg _ (State.submissionTruncated_of_decoding decoding cutShort)⟩
  · rintro rfl
    refine ⟨fun few => ?_, fun enough => ?_⟩
    · exact congrArg some (if_pos few)
    · exact congrArg some (if_neg (Nat.not_lt.mpr enough))
  · simp only [List.mem_cons, List.not_mem_nil, or_false]
    rintro (rfl | rfl | rfl | rfl | rfl) <;> rfl
  · rintro rfl; rfl
  · rintro rfl; rfl
  · rintro rfl; rfl
  · rintro rfl; rfl
  · exact exec_submission_of_accepted decoding submits short
      (State.decide_of_free sound requires ⟨going, State.admits_iff.mpr part⟩ nonzero unused free)
  · intro refusedWith admitted
    have refused {d : Code} (decision : State.decide s code tag args crc = d) (other : d ≠ .accepted) :
        refusedWith (Code.byte d) := exec_submission_of_refused decoding submits short decision other
    have admits : admitted ↔ s.intake.restartPending = false ∧ State.admits s code = true := by
      rw [State.admits_iff]
    refine ⟨fun broken => refused (State.decide_of_broken broken) nofun, fun sound =>
      ⟨fun unknown => refused (State.decide_of_unknown sound unknown) nofun, fun required requires =>
        ⟨fun other => refused (State.decide_of_length sound requires other) nofun, ?_⟩⟩⟩
    rintro rfl
    refine ⟨fun barred => refused (State.decide_of_notReady sound requires (barred ∘ admits.mpr)) nofun, fun ready =>
      ⟨fun zero => ?_, fun nonzero => ⟨fun used => ?_, fun unused full => ?_⟩⟩⟩
    · exact refused (State.decide_of_tagZero sound requires (admits.mp ready) zero) nofun
    · exact refused (State.decide_of_tagInUse sound requires (admits.mp ready) nonzero used) nofun
    · exact refused (State.decide_of_full sound requires (admits.mp ready) nonzero unused full) nofun

end Sys2Proof.Machine
end

section
/-! The bytes the part sends (R181, R188, R195, R197, R198): the codes, the records, the INFO answer. -/

namespace Sys2Proof.Machine

set_option Elab.async false

/-! ### The link CRC -/

theorem crcShift_eq (r : Word) : crcShift r = if r.getLsbD 31 then (r <<< 1) ^^^ (0x04C11DB7 : Word) else r <<< 1 := by
  rw [crcShift, BitVec.msb_eq_getLsbD_last]

/-- The bits of a byte are shifted in one after the other (R188). -/
theorem crcShifts_eq_foldl (n : Nat) (r : Word) : crcShifts n r = (List.range n).foldl (fun r _ => crcShift r) r := by
  rw [List.foldl_const, List.length_range]
  induction n generalizing r with
  | zero => rfl
  | succ n ih => rw [crcShifts, ih, Function.iterate_succ_apply]

/-- One more byte goes into the link CRC bit by bit (R188). -/
theorem linkCrc_append (bytes : List Byte) (b : Byte) :
    linkCrc (bytes ++ [b]) =
      (List.range 8).foldl (fun r _ => if r.getLsbD 31 then (r <<< 1) ^^^ (0x04C11DB7 : Word) else r <<< 1)
        (linkCrc bytes ^^^ (b.setWidth 32 <<< 24)) := by
  rw [linkCrc, crcRegister, List.foldl_append, List.foldl_cons, List.foldl_nil, crcByte, crcShifts_eq_foldl]
  simp only [crcShift_eq]
  rfl

/-! ### Records -/

theorem Record.length_bytes (r : Record) : (Record.bytes r).length = 10 + (Payload.bytes r.result.payload).length := by
  simp only [Record.bytes, Record.body, List.length_append, List.length_cons, List.length_nil, length_be32]
  omega

theorem Flags.getLsbD_byte (f : Flags) :
    (Flags.byte f).getLsbD 5 = f.more ∧ (Flags.byte f).getLsbD 4 = f.corrupt ∧ (Flags.byte f).getLsbD 3 = f.skewed ∧
      (Flags.byte f).getLsbD 2 = f.retired ∧ (Flags.byte f).getLsbD 1 = f.degraded ∧
      (Flags.byte f).getLsbD 0 = f.skewRepaired := by
  simp only [Flags.byte, BitVec.getLsbD_or, getLsbD_flagged]
  simp

theorem getLsbD_presenceBit {α : Type} (x : Option α) (bit : Byte) (i : Nat) :
    (presenceBit x bit).getLsbD i = (x.isSome && bit.getLsbD i) := getLsbD_flagged x.isSome bit i

theorem item16_eq (x : Option Nat) : item16 x = (x.map be16).getD [0, 0] := by cases x <;> rfl

theorem length_item16 (x : Option Nat) : (item16 x).length = 2 := rfl

theorem length_policyItem (p : Option Policy) : (policyItem p).length = 8 := by cases p <;> rfl

theorem LookupReport.length_bytes (r : LookupReport) : (LookupReport.bytes r).length = 23 + r.label.length := by
  simp only [LookupReport.bytes, List.length_append, List.length_cons, List.length_nil, length_be16, length_be32]

theorem Entry.bytes_eq (e : Entry) :
    Entry.bytes e =
      be32 e.key ++ be16 e.frame.val ++ be16 e.gen.toNat ++
        (match e.cls with
          | some k => [0, BitVec.ofNat 8 k.val]
          | none => [1, 0]) := by
  rw [Entry.bytes, List.append_assoc]
  cases e.cls <;> rfl

theorem length_flatten_entries (entries : List Entry) : ((entries.map Entry.bytes).flatten).length = 10 * entries.length := by
  induction entries with
  | nil => rfl
  | cons e entries ih =>
    have ten : (Entry.bytes e).length = 10 := rfl
    rw [List.map_cons, List.flatten_cons, List.length_append, ih, ten, List.length_cons]
    omega

/-! ### INFO -/

/-- The items of the INFO answer in the order of R197, each with its bytes. -/
def State.infoItems (s : State) : List (List Byte) :=
  [[PartState.field s.part], [boolByte s.intake.restartPending], [BitVec.ofNat 8 s.intake.waiting.length],
    [((State.inProgress s).map fun c => c.tag).getD 0], [BitVec.ofNat 8 s.intake.results.length],
    be16 s.pools.free.length, be16 s.pools.reclaim.length, be16 s.pools.quarantine.length, be16 s.pools.bad.length,
    be16 (State.liveCount s), be16 (State.corruptCount s),
    [boolByte s.engine.epoch.isSome], be32 (s.engine.epoch.getD (Config.unsetEpochField s.freeUses)),
    (List.finRange 16).map fun k => ClassStatus.byte s.policies[k],
    be16 (holdsNat s.engine.holds),
    [boolByte s.mount.label.isSome], be32 (s.mount.label.getD (Config.absentLabelField s.freeUses)),
    [(if State.lowFree s then 2 else 0) ||| (if s.link.faultEvent then 1 else 0)],
    be16 s.mount.report.free, be16 s.mount.report.dirty, be16 s.mount.report.abandoned, be16 s.mount.report.duplicates,
    be16 s.mount.report.irregular, be16 s.mount.report.orphans, be16 s.mount.report.corrupt,
    be32 (linkCrc (State.infoBody s))]

theorem State.statuses_eq (s : State) :
    s.policies.toList.map ClassStatus.byte = (List.finRange 16).map fun k => ClassStatus.byte s.policies[k] := by
  apply List.ext_getElem
  · rw [List.length_map, List.length_map, Vector.length_toList, List.length_finRange]
  · intro i _ _
    simp

theorem State.infoBytes_eq_flatten (s : State) : State.infoBytes s = (State.infoItems s).flatten := by
  simp only [State.infoBytes, State.infoBody, State.infoItems, State.statuses_eq, epochBytes, labelBytes, MountReport.bytes,
    List.flatten_cons, List.flatten_nil, List.append_assoc, List.cons_append, List.nil_append, List.append_nil]

/-- Among items sent one after the other, each stands where those before it end. -/
theorem take_drop_flatten {items : List (List Byte)} {item : List Byte} {j place size : Nat} (is : items[j]? = some item)
    (before : ((items.take j).flatten).length = place) (length : item.length = size) :
    (items.flatten.drop place).take size = item := by
  obtain ⟨inside, rfl⟩ := List.getElem?_eq_some_iff.mp is
  have split : items.flatten = (items.take j).flatten ++ (items[j] ++ (items.drop (j + 1)).flatten) := by
    rw [← List.flatten_cons, ← List.drop_eq_getElem_cons inside, ← List.flatten_append, List.take_append_drop]
  rw [split, ← before, List.drop_left, ← length, List.take_left]

theorem State.item_infoBytes {s : State} {item : List Byte} (j : Nat) {place size : Nat}
    (is : (State.infoItems s)[j]? = some item) (before : (((State.infoItems s).take j).flatten).length = place)
    (length : item.length = size) : ((State.infoBytes s).drop place).take size = item := by
  rw [State.infoBytes_eq_flatten]
  exact take_drop_flatten is before length

theorem getD_of_take_drop {bytes item : List Byte} {place size n : Nat} (stands : (bytes.drop place).take size = item)
    (inside : n < size) : bytes.getD (place + n) 0 = item.getD n 0 := by
  simp [← stands, List.getD_eq_getElem?_getD, inside]

/-- An item of one byte. -/
theorem State.byte_infoBytes {s : State} {b : Byte} (j : Nat) {place : Nat} (is : (State.infoItems s)[j]? = some [b])
    (before : (((State.infoItems s).take j).flatten).length = place) : (State.infoBytes s).getD place 0 = b :=
  getD_of_take_drop (n := 0) (State.item_infoBytes j is before rfl) Nat.one_pos

/-- The statuses stand from byte 22 on, one for each class (R197). -/
theorem State.status_infoBytes (s : State) (k : ClassNo) :
    (State.infoBytes s).getD (22 + k.val) 0 = ClassStatus.byte s.policies[k] := by
  have stand : ((State.infoBytes s).drop 22).take 16 = (List.finRange 16).map fun k => ClassStatus.byte s.policies[k] :=
    State.item_infoBytes 13 rfl rfl rfl
  rw [getD_of_take_drop stand k.isLt]
  simp

theorem State.length_infoBytes (s : State) : (State.infoBytes s).length = 64 := by
  rw [State.infoBytes_eq_flatten]
  rfl

theorem State.length_infoBody (s : State) : (State.infoBody s).length = 60 := by
  have whole := State.length_infoBytes s
  rw [State.infoBytes, List.length_append, length_be32] at whole
  omega

/-- The last four bytes are the link CRC of the 60 before them (R188). -/
theorem State.drop_infoBytes_crc (s : State) :
    (State.infoBytes s).drop 60 = be32 (linkCrc ((State.infoBytes s).take 60)) := by
  rw [State.infoBytes, ← State.length_infoBody s, List.drop_left, List.take_left]

/-! ### The holds -/

/-- The two bytes of a number spell its 16 low bits. -/
theorem append_be16 (n : Nat) : BitVec.ofNat 8 (n / 256) ++ BitVec.ofNat 8 n = BitVec.ofNat 16 n := by
  apply BitVec.eq_of_toNat_eq
  rw [toNat_append_byte]
  simp only [BitVec.toNat_ofNat]
  omega

/-- The bits of a number that a list of bits spells, the first of them the most significant. -/
theorem testBit_foldl_bits (bits : List Bool) {i : Nat} (inside : i < bits.length) :
    (bits.foldl (fun (n : Nat) (b : Bool) => 2 * n + (if b then 1 else 0)) 0).testBit (bits.length - 1 - i) = bits[i] := by
  induction bits using List.reverseRecOn with
  | nil => cases inside
  | append_singleton bits b ih =>
    rw [List.foldl_append, List.foldl_cons, List.foldl_nil, List.length_append, List.length_singleton, Nat.add_sub_cancel]
    rw [List.length_append, List.length_singleton] at inside
    rcases Nat.lt_succ_iff_lt_or_eq.mp inside with before | last
    · have half : ∀ m, (2 * m + (if b then 1 else 0)) / 2 = m := by
        cases b
        · simp
        · simp
          omega
      rw [show bits.length - i = bits.length - 1 - i + 1 by omega, Nat.testBit_succ, half, ih before,
        List.getElem_append_left before]
    · subst last
      rw [Nat.sub_self, List.getElem_concat_length rfl]
      cases b <;> simp

theorem getLsbD_holds (holds : Vector Bool 16) (k : ClassNo) :
    (BitVec.ofNat 16 (holdsNat holds)).getLsbD (15 - k.val) = holds[k] := by
  have bit := testBit_foldl_bits holds.toList (i := k.val) (by rw [Vector.length_toList]; exact k.isLt)
  simp only [Vector.length_toList, Vector.getElem_toList] at bit
  rw [BitVec.getLsbD_ofNat, decide_eq_true (by omega), Bool.true_and]
  exact bit

/-- Bit 15 − k of bytes 38 and 39 is the hold of class k (R197). -/
theorem State.hold_infoBytes (s : State) (k : ClassNo) :
    ((State.infoBytes s).getD 38 0 ++ (State.infoBytes s).getD 39 0).getLsbD (15 - k.val) = s.engine.holds[k] := by
  have stand : ((State.infoBytes s).drop 38).take 2 = be16 (holdsNat s.engine.holds) :=
    State.item_infoBytes 14 rfl rfl rfl
  have high := getD_of_take_drop stand Nat.two_pos
  have low := getD_of_take_drop stand Nat.one_lt_two
  rw [show (State.infoBytes s).getD 38 0 = _ from high, show (State.infoBytes s).getD 39 0 = _ from low, ← getLsbD_holds,
    ← append_be16]
  rfl

/-- The indications byte shows LOW_FREE and FAULT_EVENT (R197). -/
theorem State.indications_infoBytes (s : State) :
    ((State.infoBytes s).getD 45 0).getLsbD 1 = State.lowFree s ∧
      ((State.infoBytes s).getD 45 0).getLsbD 0 = s.link.faultEvent := by
  rw [State.byte_infoBytes (s := s) (place := 45) 17 rfl rfl]
  simp only [BitVec.getLsbD_or, getLsbD_flagged]
  simp

/-! ### Every byte in its place -/

/-- Settles O49: the conjuncts in the statement's order. -/
theorem sentBytesStandInTheirPlaces : Obligations.SentBytesStandInTheirPlaces := by
  refine ⟨fun n w => ⟨rfl, be32_eq w⟩, ⟨rfl, rfl, rfl⟩, ⟨rfl, fun bytes b => ⟨linkCrc_append bytes b, rfl⟩⟩, ⟨rfl, rfl⟩,
    fun r => ⟨rfl, Record.length_bytes r⟩, Flags.getLsbD_byte, ?presence, ?counts, ?lengths, ?info⟩
  case presence =>
    intro key frame gen allowance remaining topups report cls status n bits zeroes frameBytes genBytes
    have configured (status : Option ClassStatus) :
        bits (.configure cls status) =
          [cls.isSome, status.isSome, (status.bind ClassStatus.policy).isSome, false, false] := by
      simp only [bits, Payload.presence, BitVec.getLsbD_or, getLsbD_presenceBit]
      simp
    refine ⟨rfl, ?issueBits, ?issueBytes, ?lookupBits, ?lookupBytes, fun r => ?reportBytes, ?drawBits, ?drawBytes,
      ?relocationBits, ?relocationBytes, ?revokeBits, ?revokeBytes, configured status, fun p => ⟨rfl, configured _⟩, rfl, rfl,
      rfl, configured none, configured _, configured _⟩
    case issueBits | lookupBits | drawBits | relocationBits | revokeBits =>
      simp only [bits, Payload.presence, BitVec.getLsbD_or, getLsbD_presenceBit]
      simp
    case issueBytes | lookupBytes | drawBytes | relocationBytes | revokeBytes =>
      simp only [Payload.bytes, item16_eq, Option.map_map, List.append_nil]
      rfl
    case reportBytes =>
      simp only [Payload.bytes, item16_eq, Option.map_map, LookupReport.bytes, List.append_assoc]
      rfl
  case counts =>
    intro part label erased newlyBad failures moved failed entries
    refine ⟨rfl, rfl, rfl, rfl, rfl, rfl, ?_⟩
    rw [Payload.bytes, ← List.flatMap_def]
    exact congrArg _ (congrArg (entries.flatMap ·) (funext Entry.bytes_eq))
  case lengths =>
    refine ⟨fun _ _ _ _ _ => rfl, fun _ _ => rfl, fun key gen report => ?_, fun _ _ _ _ => rfl, fun _ _ _ _ _ _ _ => rfl,
      fun _ _ _ => rfl, fun entries => ?_, fun cls status => ?_, fun _ _ => rfl, fun _ _ _ _ _ => rfl⟩
    · rw [Payload.bytes, List.length_append, List.length_append, length_be32, length_item16, LookupReport.length_bytes]
      omega
    · rw [Payload.bytes, List.length_cons, length_flatten_entries, Nat.add_comm]
    · rw [Payload.bytes, List.length_append, length_policyItem]
      rfl
  case info =>
    intro s info byte two
    have statusByte (k : ClassNo) {status : ClassStatus} (is : s.policies[k] = status) :
        byte (22 + k.val) = ClassStatus.byte status := (State.status_infoBytes s k).trans (congrArg _ is)
    refine ⟨State.length_infoBytes s,
      ⟨State.byte_infoBytes 0 rfl rfl, State.byte_infoBytes 1 rfl rfl, State.byte_infoBytes 2 rfl rfl, ?_,
        State.byte_infoBytes 4 rfl rfl⟩,
      ⟨State.item_infoBytes 5 rfl rfl rfl, State.item_infoBytes 6 rfl rfl rfl, State.item_infoBytes 7 rfl rfl rfl,
        State.item_infoBytes 8 rfl rfl rfl, State.item_infoBytes 9 rfl rfl rfl, State.item_infoBytes 10 rfl rfl rfl⟩,
      ⟨State.byte_infoBytes 11 rfl rfl, fun e epoch => ?_⟩,
      fun k => ⟨statusByte k, fun p => statusByte k, statusByte k, State.hold_infoBytes s k⟩,
      ⟨State.byte_infoBytes 15 rfl rfl, fun label present => ?_⟩, State.indications_infoBytes s,
      ⟨State.item_infoBytes 18 rfl rfl rfl, State.item_infoBytes 19 rfl rfl rfl, State.item_infoBytes 20 rfl rfl rfl,
        State.item_infoBytes 21 rfl rfl rfl, State.item_infoBytes 22 rfl rfl rfl, State.item_infoBytes 23 rfl rfl rfl,
        State.item_infoBytes 24 rfl rfl rfl⟩,
      State.drop_infoBytes_crc s⟩
    · have tag := Option.map_map (fun c : Command => c.tag) (fun j : Job => j.cmd) s.engine.job
      exact (State.byte_infoBytes 3 rfl rfl).trans (congrArg (Option.getD · 0) tag)
    · refine State.item_infoBytes 12 ?_ rfl rfl
      rw [← Option.getD_some (a := e), ← epoch]
      rfl
    · refine State.item_infoBytes 16 ?_ rfl rfl
      rw [← Option.getD_some (a := label), ← present]
      rfl

end Sys2Proof.Machine
end

section
/-! A step on a queue that is not empty (manual 3.4); `step_of_empty` says what it does on the empty one. -/

namespace Sys2Proof.Machine

/-- Settles O1: with a command at its front the queue picks the second branch of `step`, which is that command's `exec`. -/
theorem stepRunsFrontCommand : Obligations.StepRunsFrontCommand := by
  intro c rest s
  rfl

end Sys2Proof.Machine
end
